-- ==== Sys2Proof/Word.lean ====
section
/-! DEFINITION. The word types of the block: bytes, 64-bit words, 256-byte containers and blocks, and the one
sparse table every addressed buffer, register map and unit family of the State is held in. -/

namespace Sys2Proof

/-- One byte (R12: bit 0 is the least significant bit). -/
abbrev Byte := BitVec 8

/-- A 64-bit word: a walk instruction (R224), a queue word (R326), an accumulator (R200). -/
abbrev Word := BitVec 64

/-- A 256-byte container or raw block (R38); bit n of the string is bit n of this word (R12). -/
abbrev Block := BitVec 2048

/-- A sparse table: (key, value) pairs with strictly rising keys and no entry equal to what an unlisted key reads as. -/
abbrev Tab (α : Type) := List (Nat × α)

end Sys2Proof
end

