-- ==== Sys2Proof/Machine/Bits.lean ====
section
/-! DEFINITION. Bit fields, two's complement and byte order over natural numbers (R12, R39): every packed layout of the
spec is read and written through these. -/

namespace Sys2Proof.Machine

/-- The field of `n` bits at bit `lo` (R12: written [lo+n-1:lo]). -/
def fld (v lo n : Nat) : Nat := v / 2 ^ lo % 2 ^ n

/-- Bit `i` of `v`. -/
def bitAt (v i : Nat) : Bool := v / 2 ^ i % 2 == 1

/-- Two's complement reading of an `n`-bit field. -/
def sint (n v : Nat) : Int := if v % 2 ^ n < 2 ^ (n - 1) then (v % 2 ^ n : Nat) else (v % 2 ^ n : Nat) - (2 ^ n : Nat)

/-- Two's complement writing of an integer into `n` bits. -/
def twos (n : Nat) (i : Int) : Nat := (i % (2 ^ n : Nat)).toNat

/-- `x` placed at bit `lo` in a field of `n` bits. -/
def put (x lo n : Nat) : Nat := x % 2 ^ n * 2 ^ lo

/-- Replace the field of `n` bits at `lo`. -/
def setFld (v lo n x : Nat) : Nat := v - fld v lo n * 2 ^ lo + put x lo n

/-- Byte `k` of a little-endian byte string held as a number (R39). -/
def byteAt (v k : Nat) : Nat := fld v (8 * k) 8

/-- A little-endian byte string as a number. -/
def ofBytes : List Nat → Nat
  | [] => 0
  | b :: bs => b % 256 + 256 * ofBytes bs

/-- The `n` low bytes of a number, lowest first. -/
def toBytes : Nat → Nat → List Nat
  | 0, _ => []
  | n + 1, v => v % 256 :: toBytes n (v / 256)

/-- A Boolean as a bit. -/
def b2n (b : Bool) : Nat := if b then 1 else 0

/-- ⌈a ÷ b⌉. -/
def ceilDiv (a b : Nat) : Nat := (a + b - 1) / b

/-- The number of ones in the low `n` bits. -/
def popcount : Nat → Nat → Nat
  | 0, _ => 0
  | n + 1, v => v % 2 + popcount n (v / 2)

/-- The positions below `n` at which `f` holds, rising. -/
def positions (n : Nat) (f : Nat → Bool) : List Nat := (List.range n).filter f

/-- The number whose bit i is set exactly where `f i` holds, for i below `n`. -/
def maskOf (n : Nat) (f : Nat → Bool) : Nat := (positions n f).foldl (fun a i => a + 2 ^ i) 0

/-- The index of the highest set bit: ⌊log2 v⌋ for v > 0. -/
def log2 (v : Nat) : Nat := Nat.log2 v

/-- Element `i` of a list, or the default. -/
def nth {α : Type} (d : α) (l : List α) (i : Nat) : α := (l[i]?).getD d

/-- Split a list into consecutive pieces of `n` elements; `fuel` bounds the number of pieces. -/
def chunksOf {α : Type} (n : Nat) : Nat → List α → List (List α)
  | 0, _ => []
  | fuel + 1, l => if l.isEmpty then [] else l.take n :: chunksOf n fuel (l.drop n)

/-- The sum of a list of integers. -/
def isum (l : List Int) : Int := l.foldl (· + ·) 0

/-- The sum of a list of naturals. -/
def nsum (l : List Nat) : Nat := l.foldl (· + ·) 0

end Sys2Proof.Machine
end

