-- ==== Sys2Proof/Config.lean ====
section
/-! DEFINITION. What an implementation fixes: the configuration (T8, T16, T32), the integration values, and the free
values, opaque constants with no body, for what the spec leaves open. -/

namespace Sys2Proof

/-- R7, Table 0.1: the three configurations. -/
inductive Variant where
  | t8 | t16 | t32
  deriving DecidableEq, Repr

/-- The values fixed when the block is instantiated (R5, R7, R37, Tables 1.7, 8.9, 11.13, 13.7). No command changes them. -/
structure Hw where
  variant : Variant
  fabricRdLat : BitVec 16
  fabricWrLat : BitVec 16
  spadRmwLat : BitVec 16
  linkRate : BitVec 32
  stackRate : BitVec 32
  arrayRetLat : BitVec 16
  linkLat : BitVec 16
  fcSkid : BitVec 8
  deriving DecidableEq, Repr

namespace Config

/-- A sensor reading (TEMP, VOLT) of an island at the n-th detection (R354): the spec gives no value. Free value, log 9. -/
opaque sensorTemp : Nat → BitVec 16
/-- The supply reading of the n-th detection (R354). Free value, log 9. -/
opaque sensorVolt : Nat → BitVec 16
/-- The ROM digest, "fixed at manufacture" (R399, Table 17.4), 48 bytes. Free value, log 5. -/
opaque romDigest : BitVec 384
/-- ROM_ID, the ROM identity number (Table 17.7). Free value, log 5. -/
opaque romId : BitVec 32
/-- The revision byte of PART (Table 17.7). Free value, log 5. -/
opaque partRevision : BitVec 8
/-- The SYNDROME of a residue mismatch that a rule raises without naming stage, difference and position (R355). Free value, log 9. -/
opaque residueSyndrome : Nat → BitVec 16
/-- The physical row of a logical row that a spare serves (R354, DETAIL): the spec does not number spares. Free value, log 9. -/
opaque spareRow : Nat → BitVec 8
/-- Which of the 255 KIND codes other than 0x1D the packets of a queue class carry (R329): Table 13.4 gives no codes. Free value,
log 14. -/
opaque packetKind : Nat → Fin 255
/-- The class-specific bits [35:0] of a packet header (R329) whose layout the spec does not give. Free value, log 14. -/
opaque packetField : Nat → BitVec 36
/-- The average clock, in MHz, of a 1 µs window in which an island's cycles were stretched without a breach (R338): the spec gives only
its bounds, the nominal and the floor clock. Free value, log 142. -/
opaque windowMhz : Nat → BitVec 16
/-- The fabric address of the history mirror's entry of a sequence number (R251, R383): the spec places the mirror nowhere. Free value,
log 146. -/
opaque mirrorAddr : Nat → BitVec 48
/-- Whether the stored CRC of the history entry of a sequence number fails at a warm start (R383): what the flash returns. Free value,
log 163. -/
opaque entryFails : Nat → BitVec 32 → Bool
/-- A word the twin port carries for an item of Table 12.1 other than the croak: the spec gives no layout. Free value, log 14. -/
opaque twinWord : Nat → BitVec 64

/-- The n-th accumulator word a SAVE reads from the host scratchpad, which is no state of the block (R215). Free value, log 13. -/
opaque spadWord : Nat → BitVec 64

end Config
end Sys2Proof
end

