-- ==== Sys2Proof/Syntax.lean ====
section
/-! DEFINITION. The commands of the block: one constructor of `Instr` per row of spec/opcode_table.json, with the operand
types they carry. A walk-instruction row carries its sequencer and the fields of Table 9.2. -/

namespace Sys2Proof

/-- R406, R431: a requester of the dictionary: a Renavasin source node or a register window channel. -/
inductive Requester where
  | can (node : BitVec 7)
  | win (channel : Bool)
  deriving DecidableEq, Repr

/-- R352: the three classes of a fault. -/
inductive FaultClass where
  | corrected | contained | fatal
  deriving DecidableEq, Repr

/-- R354: what a detecting unit puts into a report (the collector adds CLASS after escalation, ESC). -/
structure Detection where
  source : BitVec 12
  cls : FaultClass
  access : BitVec 4
  akind : BitVec 2 := 0
  addr : BitVec 48 := 0
  syndrome : BitVec 16 := 0
  detail : BitVec 24 := 0
  op : BitVec 8 := 0xFF
  stream : BitVec 10 := 0
  tenant : BitVec 8 := 0
  temp : BitVec 16 := 0
  volt : BitVec 16 := 0
  deriving DecidableEq, Repr

/-- R365: what voting over the collector's three copies found while this report was processed. -/
inductive Vote where
  | agree | oneDiffers | noMajority
  deriving DecidableEq, Repr

/-- R415: WIN_OFF at a write of WIN_CMD that reads a segment, and what voting finds while the collector's state is read for it (R365). -/
structure WinRead where
  off : BitVec 32
  vote : Vote := .agree
  deriving DecidableEq, Repr

/-- R415: WIN_SEL and the value written to WIN_CMD. -/
structure WinCmd where
  sel : BitVec 32
  cmd : BitVec 32
  deriving DecidableEq, Repr

/-- R410: a Renavasin request frame as it arrives. The service is the row's, unless the frame carries another (R410: one that is never
sent is malformed). `waits`: the controller serves an earlier request, so that the port buffers this one (R412). `vote`: what voting finds
while the collector's state is read for it (R365). -/
structure CanReq where
  dst : BitVec 7
  src : BitVec 7
  tag : BitVec 11
  payload : List Byte
  service : Option (BitVec 4) := none
  waits : Bool := false
  vote : Vote := .agree
  deriving DecidableEq, Repr

/-- R269: a link frame; R293: the Ethernet wrapping when the port's ETH_MODE is 1 or 2 (EtherType, destination). -/
structure Frame where
  header : BitVec 256
  containers : List Block
  trailer : BitVec 128
  eth : Option (BitVec 16 × BitVec 48) := none
  deriving DecidableEq, Repr

/-- R383, R384: a history entry; the record is Table 15.4's 256 bits. -/
structure HistEntry where
  seq : BitVec 32
  kind : BitVec 8
  twin : Bool
  ref : BitVec 32
  record : BitVec 256
  deriving DecidableEq, Repr

/-- Table 16.8: one test item. -/
structure TestItem where
  number : BitVec 32
  unitType : BitVec 8
  startOnly : Bool
  rowTest : Bool
  duration : BitVec 32
  stimOff : BitVec 32
  stimLen : BitVec 32
  signature : BitVec 64
  deriving DecidableEq, Repr

/-- R386: a test content package as installed. -/
structure Package where
  id : BitVec 32
  digest : BitVec 384
  items : List TestItem
  deriving DecidableEq, Repr

/-- R307, Table 12.1: the items of the twin port other than the croak, and the acknowledgement of R306. `shareAssigned` carries the
target frame (0 where the authority runs no frames) and whether the follower passed the write on; `auth` is a step of a TWIN_AUTH
write: 0 asked, 1 granted, 2 agreed, 3 confirmed, with the croak window at whose end it takes effect (log 97); `mirrorSlot` is one package slot of a full mirror (log 183). -/
inductive TwinMsg where
  | shareRequest (key value : Nat)
  | shareAssigned (gen : BitVec 16) (key value target : Nat) (passedOn : Bool)
  | auth (step : BitVec 2) (value window : Nat)
  | shareAck (gen : BitVec 16)
  | history (e : HistEntry)
  | package (slot : BitVec 3) (p : Package)
  | mirrorSlot (slot : BitVec 3) (p : Option Package)
  | staged (image : List Byte)
  | mirrorItem (key value : Nat)
  | measured (slot : BitVec 3) (digest : BitVec 384)
  deriving DecidableEq, Repr

/-- R311, Table 12.4: what answers a twin probe. -/
inductive ProbeAnswer where
  | state (twinState : BitVec 8)
  | error (code : BitVec 8)
  deriving DecidableEq, Repr

/-- R375: the datapath whose residue check completes with a mismatch, and what it covered. -/
inductive ResidueSite where
  /-- a merge-tree check; the scoreboard entry of the tile concerned while one is held (R217), and the delivery's sequence number (R354) -/
  | mergeTree (cluster : BitVec 5) (entry : Option (BitVec 3)) (seq : BitVec 16)
  /-- a lane rotation butterfly; the delivery sequence numbers of its late-poison notice (R128) -/
  | lane (cluster : BitVec 5) (lane : BitVec 5) (weightPort : Bool) (seqs : List (BitVec 16))
  /-- the predictor array, for a pass not yet released (R184) -/
  | flick (cluster : BitVec 5) (pass : BitVec 4)
  /-- a pack unit's scale multiplier or rotation, for a container of its queue (R280) -/
  | pack (cluster : BitVec 5) (item : Nat)
  /-- a chorus adder, for an output of the port (R280) -/
  | chorus (port : BitVec 4) (item : Nat)
  /-- the dictionary path, for the next request that it carries (check 2 of Table 18.3) -/
  | dictionary
  deriving DecidableEq, Repr

/-- R280: the maker whose verdict on a container settles. -/
inductive Maker where
  | pack (cluster : BitVec 5) (item : Nat)
  | chorus (port : BitVec 4) (item : Nat)
  deriving DecidableEq, Repr

/-- The commands: one constructor per row of the table. `q` is a sequencer (R220), `c` a cluster, `p` a link port,
`r` a requester of the dictionary. -/
inductive Instr where
  -- walk instructions (Table 9.2)
  | endProg (q : BitVec 6)
  | nop (q : BitVec 6)
  | waitt (q : BitVec 6) (t : BitVec 28)
  | waitd (q : BitVec 6) (db : BitVec 6) (v : BitVec 16)
  | sig (q : BitVec 6) (db : BitVec 6)
  | loop (q : BitVec 6) (n : BitVec 16) (l : BitVec 13)
  | xop (q : BitVec 6) (reg : BitVec 2) (add : Bool) (v : BitVec 20)
  | gate (q : BitVec 6) (xsel : BitVec 2) (pass : BitVec 4) (neuron : BitVec 13)
  | dmark (q : BitVec 6) (xsel : BitVec 2) (dslot : BitVec 6) (ord : BitVec 20)
  | step (q : BitVec 6)
  | fetch (q : BitVec 6) (xsel : BitVec 2) (desc : BitVec 12) (off : BitVec 20) (slot : BitVec 14) (cnt : BitVec 10)
  | xpw (q : BitVec 6) (xsel : BitVec 2) (desc : BitVec 12) (slot : BitVec 14) (cnt : BitVec 10) (tile : BitVec 3)
      (path : BitVec 2) (transposed krows : Bool) (col0 : BitVec 12)
  | xpa (q : BitVec 6) (xsel : BitVec 2) (desc : BitVec 12) (slot : BitVec 14) (cnt : BitVec 10) (tile : BitVec 3)
      (row : BitVec 4) (dest : BitVec 2)
  | flick (q : BitVec 6) (xsel : BitVec 2) (pass : BitVec 4) (mode : BitVec 2) (fdesc : BitVec 8) (aslot gslot : BitVec 14)
      (rows : BitVec 4)
  | topen (q : BitVec 6) (tile : BitVec 3) (tdesc : BitVec 12) (mode : BitVec 2)
  | pack (q : BitVec 6) (xsel : BitVec 2) (tile : BitVec 3) (desc : BitVec 12) (off : BitVec 20)
      (stats ptok stoch link : Bool) (port : BitVec 4)
  | svec (q : BitVec 6) (desc vdesc : BitVec 12)
  | save (q : BitVec 6) (tile : BitVec 3) (desc : BitVec 12)
  | restore (q : BitVec 6) (tile : BitVec 3) (desc tdesc : BitVec 12)
  | scsave (q : BitVec 6) (desc sdesc : BitVec 12)
  | screst (q : BitVec 6) (desc sdesc : BitVec 12)
  | send (q : BitVec 6) (xsel : BitVec 2) (xdesc : BitVec 12) (cnt : BitVec 10) (slot : BitVec 14) (off : BitVec 20)
  | recv (q : BitVec 6) (xsel : BitVec 2) (xdesc : BitVec 12) (cnt : BitVec 10) (slot : BitVec 14) (off : BitVec 20)
  | chorus (q : BitVec 6) (xsel : BitVec 2) (xdesc : BitVec 12) (cnt : BitVec 10) (slot : BitVec 14) (off : BitVec 20)
  -- plan (09)
  | planLoad (r : Requester)
  | planLoadComplete (image : List Block) (uncorrectable : Option Nat)
  | planActivate (r : Requester)
  | planPause (r : Requester)
  | planDiscard (r : Requester)
  | armedActivation
  | frameStart
  | slotStart (q : BitVec 6) (slot : BitVec 10)
  | slotLastTick (q : BitVec 6)
  | completionRecord (q : BitVec 6)
  | testSlotStart
  | testSlotEnd (untested : List (BitVec 12))
  | testItemVerdict (source : BitVec 12) (pkg : BitVec 4) (item : BitVec 32) (signature : BitVec 64) (builtinPass : Bool)
      (bank row : BitVec 8)
  | digestIntervalEnd
  -- cluster (05 to 08)
  | laneRemap (c : BitVec 5)
  | latePoisonNotice (c : BitVec 5) (lane : BitVec 5) (weightPort : Bool) (seqs : List (BitVec 16))
  | partialResult (c : BitVec 5) (words : List Word)
  | spadRmwReturn (c : BitVec 5) (lane : BitVec 6) (old : Word)
  | tileDrainReady (c : BitVec 5) (entry : BitVec 3) (acc : List Word)
  | tileRelease (c : BitVec 5) (entry : BitVec 3)
  | residueCheckFail (site : ResidueSite) (syndrome : BitVec 16)
  | producerVerdict (maker : Maker) (confirm : Bool)
  | flickMaskRelease (c : BitVec 5) (pass : BitVec 4)
  | flickVerifyResult (c : BitVec 5) (pass : BitVec 4) (neuron : BitVec 13)
  | fabricReadResponse (c : BitVec 5) (data : Block) (ue : Bool)
  | fabricWriteDone (c : BitVec 5)
  | eaDone (u : Bool) (lanes : BitVec 16)
  -- queues and islands (13)
  | queueRead (queue : BitVec 9) (flips : List (BitVec 72)) (word : Option (BitVec 72))
  | breachWindowEnd (island : BitVec 6) (mhz : BitVec 16)
  -- link (11)
  | linkUp (p : BitVec 4)
  | linkDown (p : BitVec 4)
  | dataFrameRx (p : BitVec 4) (f : Frame)
  | verdictFrameRx (p : BitVec 4) (f : Frame)
  | resyncRequestRx (p : BitVec 4) (f : Frame)
  | resyncAckRx (p : BitVec 4) (f : Frame)
  | resyncRepeat (p : BitVec 4)
  | resyncTimeout (p : BitVec 4)
  | verdictOnlySend (p : BitVec 4)
  | verdictTimeout (p : BitVec 4)
  | chorusCombine (p : BitVec 4)
  | epochWrite (r : Requester) (value : BitVec 16)
  -- twin (12)
  | croakSend
  | croakRx (word : BitVec 72)
  | croakWindowEnd
  | probeReply (a : ProbeAnswer)
  | probeTimeout (acked : Bool)
  | twinMessageRx (m : TwinMsg)
  | mirrorComplete (twinInstance : BitVec 12) (twinHasAuthority : Bool)
  -- faults and history (15, 16)
  | faultReport (new : Option Detection) (scaleEntry : Option (BitVec 11)) (vote : Vote)
  | policyAck (source : BitVec 12) (cls : FaultClass)
  | ackSource (r : Requester) (value : BitVec 16)
  | ackAll (r : Requester) (value : BitVec 8)
  | ackRecord (r : Requester) (value : BitVec 8)
  | force (r : Requester) (value : BitVec 32)
  | forceFatal (r : Requester) (value : BitVec 16)
  | keep (r : Requester) (value : BitVec 16)
  | watchSet (r : Requester) (value : BitVec 16)
  | histVoid (r : Requester) (value : BitVec 32)
  | histClear (r : Requester) (value : BitVec 8)
  | tcLoad (r : Requester) (total off : BitVec 32) (data : List Byte) (last : Bool)
  | tcInstall (r : Requester)
  | tcRemove (r : Requester)
  | tcDiscard (r : Requester)
  -- start (17)
  | coldStart (nodeId : BitVec 7) (twinIdx : Bool) (flashReadable : Bool) (badEntries : List (Bool × BitVec 32))
  | powerFail
  | warmQuiesce
  | warmStart
  | controllerReady
  | bootAttemptTimeout
  | coldTestBudgetEnd (aborted : List (BitVec 12 × BitVec 4 × BitVec 32)) (deferred : List (BitVec 12))
  | epochAcq (r : Requester) (value : BitVec 16)
  | epochAcqTimeout
  | idOverride (r : Requester) (value : BitVec 16)
  | measExtend (r : Requester) (reg : BitVec 8) (digest : BitVec 384)
  | fwLoad (r : Requester) (total off : BitVec 32) (data : List Byte) (last : Bool)
  | fwCommitTrial (r : Requester)
  | fwCommitSwap (r : Requester)
  | fwConfirm (r : Requester) (value : BitVec 8)
  -- dictionary (18, 19)
  | read (m : CanReq)
  | write (m : CanReq)
  | abort (m : CanReq)
  | winReadSegment (k : Bool) (sel : BitVec 32) (r : WinRead)
  | winWriteSegment (k : Bool) (sel off len : BitVec 32) (data : List Byte)
  | winWriteLast (k : Bool) (sel off len : BitVec 32) (data : List Byte)
  | winAbort (k : Bool) (c : WinCmd)
  | notePendRead (r : Requester)
  | notifyHoldoffEnd (code : BitVec 4)
  | snapshotExpiry (r : Requester)
  | openWriteExpiry (key : BitVec 24)
  | replyRetentionExpiry (node : BitVec 7)
  | busOff
  | objectWrite (r : Requester) (key : BitVec 24) (value : List Byte)
  | regionWrite (r : Requester) (region : BitVec 6) (entry : BitVec 128)
  | retPageWrite (r : Requester) (entry : BitVec 8) (value : Word)
  | sfEntryWrite (r : Requester) (c : BitVec 5) (sub : BitVec 8) (value : BitVec 16)
  | twinAuthWrite (r : Requester) (value : BitVec 8)
  | irqEnableWrite (r : Requester) (value : BitVec 8)
  -- pins and time (18, 20)
  | presencePinChange (low : Bool)
  | presenceQualified
  | presenceWindowEnd
  | presenceRearm
  | timeLoadFrame (bits : BitVec 67)
  | timeSync
  | thermPinChange (stack : BitVec 2) (crit low : Bool)
  | thermRelease (stack : BitVec 2)
  | ceilingEnd (q : BitVec 6)
  | flashWriteDone (ok : Bool)
  | busOffRecovery
  | supplyDroop (island : BitVec 6) (below : Bool) (stretched : BitVec 32)
  deriving DecidableEq, Repr

end Sys2Proof
end

