-- ==== Sys2Proof/WellFormed.lean ====
section
/-! DEFINITION. The operands a command may carry: a walk instruction holds no reserved value (R226). Every other operand a command
carries has an effect: one that breaks its layout is answered as malformed, refused or taken as a frame error, as its rule says. -/

namespace Sys2Proof

/-- R226, Table 9.2: no field of a walk instruction holds a reserved value. -/
def Instr.reservedFree : Instr → Bool
  | .loop _ n l => n != 0 && l != 0
  | .xop _ reg _ _ => reg != 0
  | .xpw _ _ _ _ _ _ path _ _ _ => path != 3
  | .xpa _ _ _ _ _ _ _ dest => dest != 3
  | .flick _ _ _ mode _ _ _ _ => mode != 3
  | .topen _ _ _ mode => mode != 3
  | _ => true

/-- The well-formed commands: a walk instruction that fails the check stops with `Fault.illFormed`. -/
def Instr.wf (i : Instr) : Bool := i.reservedFree

end Sys2Proof
end

