-- ==== Sys2Proof/Decode.lean ====
section
/-! DEFINITION. The row table gives no row any bits, so `decodeTableWord` reads none; and the walk-instruction word of
R224/R225 (Table 9.2), which the sequencers hold in their program stores and which plan load checks: encoder and decoder. -/

namespace Sys2Proof

open Machine (fld)

/-- The command a word spells by the bits of spec/opcode_table.json: no row of the table has bits. -/
def decodeTableWord (_nbits _w : Nat) : Option Instr := none

/-- Opcode, XSEL and the fields of [55:0] as one word (R224). -/
def walkWord (op xsel low : Nat) : Word := BitVec.ofNat 64 (op * 2 ^ 58 + xsel * 2 ^ 56 + low)

/-- A Boolean as a field of one bit. -/
def bool1 (b : Bool) : Nat := if b then 1 else 0

/-- Table 9.2: the 64-bit word of a walk instruction; none for the other rows. -/
def encodeWalk : Instr → Option Word
  | .endProg _ => some (walkWord 0x00 0 0)
  | .nop _ => some (walkWord 0x01 0 0)
  | .waitt _ t => some (walkWord 0x02 0 t.toNat)
  | .waitd _ db v => some (walkWord 0x03 0 (db.toNat * 2 ^ 32 + v.toNat))
  | .sig _ db => some (walkWord 0x04 0 (db.toNat * 2 ^ 32))
  | .loop _ n l => some (walkWord 0x05 0 (n.toNat * 2 ^ 16 + l.toNat))
  | .xop _ reg add v => some (walkWord 0x06 0 (reg.toNat * 2 ^ 54 + bool1 add * 2 ^ 53 + v.toNat))
  | .gate _ x pass n => some (walkWord 0x07 x.toNat (pass.toNat * 2 ^ 52 + n.toNat))
  | .dmark _ x ds ord => some (walkWord 0x08 x.toNat (ds.toNat * 2 ^ 20 + ord.toNat))
  | .step _ => some (walkWord 0x09 0 0)
  | .fetch _ x d off slot cnt =>
    some (walkWord 0x10 x.toNat (d.toNat * 2 ^ 44 + off.toNat * 2 ^ 24 + slot.toNat * 2 ^ 10 + cnt.toNat))
  | .xpw _ x d slot cnt tile path tr kr col0 =>
    some (walkWord 0x11 x.toNat (d.toNat * 2 ^ 44 + slot.toNat * 2 ^ 30 + cnt.toNat * 2 ^ 20 + tile.toNat * 2 ^ 17
      + path.toNat * 2 ^ 15 + bool1 tr * 2 ^ 14 + bool1 kr * 2 ^ 13 + col0.toNat))
  | .xpa _ x d slot cnt tile row dest =>
    some (walkWord 0x12 x.toNat (d.toNat * 2 ^ 44 + slot.toNat * 2 ^ 30 + cnt.toNat * 2 ^ 20 + tile.toNat * 2 ^ 17
      + row.toNat * 2 ^ 13 + dest.toNat * 2 ^ 11))
  | .flick _ x pass mode fd aslot gslot rows =>
    some (walkWord 0x13 x.toNat (pass.toNat * 2 ^ 52 + mode.toNat * 2 ^ 50 + fd.toNat * 2 ^ 42 + aslot.toNat * 2 ^ 28
      + gslot.toNat * 2 ^ 14 + rows.toNat * 2 ^ 10))
  | .topen _ tile td mode => some (walkWord 0x18 0 (tile.toNat * 2 ^ 53 + td.toNat * 2 ^ 41 + mode.toNat * 2 ^ 39))
  | .pack _ x tile d off st pt so li port =>
    some (walkWord 0x19 x.toNat (tile.toNat * 2 ^ 53 + d.toNat * 2 ^ 41 + off.toNat * 2 ^ 21 + bool1 st * 2 ^ 20
      + bool1 pt * 2 ^ 19 + bool1 so * 2 ^ 18 + bool1 li * 2 ^ 17 + port.toNat * 2 ^ 13))
  | .svec _ d vd => some (walkWord 0x1A 0 (d.toNat * 2 ^ 44 + vd.toNat * 2 ^ 32))
  | .save _ tile d => some (walkWord 0x1B 0 (tile.toNat * 2 ^ 53 + d.toNat * 2 ^ 41))
  | .restore _ tile d td => some (walkWord 0x1C 0 (tile.toNat * 2 ^ 53 + d.toNat * 2 ^ 41 + td.toNat * 2 ^ 29))
  | .scsave _ d sd => some (walkWord 0x1D 0 (d.toNat * 2 ^ 44 + sd.toNat * 2 ^ 32))
  | .screst _ d sd => some (walkWord 0x1E 0 (d.toNat * 2 ^ 44 + sd.toNat * 2 ^ 32))
  | .send _ x xd cnt slot off =>
    some (walkWord 0x20 x.toNat (xd.toNat * 2 ^ 44 + cnt.toNat * 2 ^ 34 + slot.toNat * 2 ^ 20 + off.toNat))
  | .recv _ x xd cnt slot off =>
    some (walkWord 0x21 x.toNat (xd.toNat * 2 ^ 44 + cnt.toNat * 2 ^ 34 + slot.toNat * 2 ^ 20 + off.toNat))
  | .chorus _ x xd cnt slot off =>
    some (walkWord 0x22 x.toNat (xd.toNat * 2 ^ 44 + cnt.toNat * 2 ^ 34 + slot.toNat * 2 ^ 20 + off.toNat))
  | _ => none

/-- The field of `n` bits at `lo` of a word. -/
def wfld (w : Word) (lo n : Nat) : BitVec n := BitVec.ofNat n (fld w.toNat lo n)

/-- One bit of a word. -/
def wbit (w : Word) (i : Nat) : Bool := fld w.toNat i 1 == 1

/-- The fields of Table 9.2 read at their places, with unassigned bits not yet looked at. -/
def walkFields (q : BitVec 6) (w : Word) : Option Instr :=
  let x := wfld w 56 2
  match fld w.toNat 58 6 with
  | 0x00 => some (.endProg q)
  | 0x01 => some (.nop q)
  | 0x02 => some (.waitt q (wfld w 0 28))
  | 0x03 => some (.waitd q (wfld w 32 6) (wfld w 0 16))
  | 0x04 => some (.sig q (wfld w 32 6))
  | 0x05 => some (.loop q (wfld w 16 16) (wfld w 0 13))
  | 0x06 => some (.xop q (wfld w 54 2) (wbit w 53) (wfld w 0 20))
  | 0x07 => some (.gate q x (wfld w 52 4) (wfld w 0 13))
  | 0x08 => some (.dmark q x (wfld w 20 6) (wfld w 0 20))
  | 0x09 => some (.step q)
  | 0x10 => some (.fetch q x (wfld w 44 12) (wfld w 24 20) (wfld w 10 14) (wfld w 0 10))
  | 0x11 => some (.xpw q x (wfld w 44 12) (wfld w 30 14) (wfld w 20 10) (wfld w 17 3) (wfld w 15 2) (wbit w 14) (wbit w 13) (wfld w 0 12))
  | 0x12 => some (.xpa q x (wfld w 44 12) (wfld w 30 14) (wfld w 20 10) (wfld w 17 3) (wfld w 13 4) (wfld w 11 2))
  | 0x13 => some (.flick q x (wfld w 52 4) (wfld w 50 2) (wfld w 42 8) (wfld w 28 14) (wfld w 14 14) (wfld w 10 4))
  | 0x18 => some (.topen q (wfld w 53 3) (wfld w 41 12) (wfld w 39 2))
  | 0x19 => some (.pack q x (wfld w 53 3) (wfld w 41 12) (wfld w 21 20) (wbit w 20) (wbit w 19) (wbit w 18) (wbit w 17) (wfld w 13 4))
  | 0x1A => some (.svec q (wfld w 44 12) (wfld w 32 12))
  | 0x1B => some (.save q (wfld w 53 3) (wfld w 41 12))
  | 0x1C => some (.restore q (wfld w 53 3) (wfld w 41 12) (wfld w 29 12))
  | 0x1D => some (.scsave q (wfld w 44 12) (wfld w 32 12))
  | 0x1E => some (.screst q (wfld w 44 12) (wfld w 32 12))
  | 0x20 => some (.send q x (wfld w 44 12) (wfld w 34 10) (wfld w 20 14) (wfld w 0 20))
  | 0x21 => some (.recv q x (wfld w 44 12) (wfld w 34 10) (wfld w 20 14) (wfld w 0 20))
  | 0x22 => some (.chorus q x (wfld w 44 12) (wfld w 34 10) (wfld w 20 14) (wfld w 0 20))
  | _ => none

/-- R226: the walk instruction of a word, or none where the opcode is unlisted, a field holds a reserved value, a bit that
Table 9.2 does not assign is set, or XSEL is non-zero on an instruction that has no (x) field. -/
def decodeWalk (q : BitVec 6) (w : Word) : Option Instr :=
  match walkFields q w with
  | some i => if i.reservedFree && encodeWalk i == some w then some i else none
  | none => none

end Sys2Proof
end

