-- ==== Sys2Proof/Machine/State.lean ====
section
/-! DEFINITION. The state of the block as plain data: everything the spec gives the instance, unit by unit, the command
queue the row asks for, and the model's own fields (`out`, `freeIdx`). -/

namespace Sys2Proof.Machine

/-- Why the machine stops with a fault. -/
inductive Fault where
  /-- Raised by any command that names a cluster, port, sequencer, island, queue, stack or region that the configuration
  does not have (R9, R421). Safe: no such unit exists, so no hardware event is cut off. -/
  | unitAbsent
  /-- Raised by a walk instruction with a reserved value in a field (`Instr.wf`): R226 "A sequencer never executes such a word".
  Safe: no such word reaches a sequencer. -/
  | illFormed
  deriving DecidableEq, Repr

/-- Why a command has no meaning. -/
inductive Refusal where
  /-- Raised by an arm of `exec` whose command has no meaning yet. Safe. -/
  | notModelled (mnemonic : String)
  deriving DecidableEq, Repr

/-- A non-negative dyadic magnitude m × 2^x. -/
structure Dyad where
  m : Nat
  x : Int
  deriving DecidableEq, Repr

/-- R280: the verdict on a container. -/
inductive Verdict where
  | unsettled | confirmed | retracted
  deriving DecidableEq, Repr

/-- R283: a port and the lowest and highest sequence numbers of pending-tagged slots. -/
structure Range where
  port : Nat
  lo : Nat
  hi : Nat
  deriving DecidableEq, Repr

/-- One operation of a sequencer's slot that completes later (R231): the sequencer and the operation's number. -/
structure OpRef where
  q : Nat
  op : Nat
  deriving DecidableEq, Repr

/-! ## Sequencers and plans -/

/-- The program store and slot table of one sequencer (R220, R237, R238). -/
structure SeqImage where
  slots : List (BitVec 128)
  prog : List Word
  deriving DecidableEq, Repr

/-- A plan image as the plan master holds it (R233 to R237). Tables keep the image's own bits. -/
structure Image where
  base : Nat
  length : Nat
  header : BitVec 2048
  tensors : List (BitVec 256)
  tiles : List (BitVec 128)
  flicks : List (BitVec 128)
  transfers : List (BitVec 256)
  stretch : List Word
  seqs : List SeqImage
  digest : BitVec 384
  deriving DecidableEq, Repr

/-- R232: an open loop: the body's first and last word and the iterations still to run. -/
structure LoopFrame where
  first : Nat
  last : Nat
  left : Nat
  deriving DecidableEq, Repr

/-- R239, R246: a slot whose program reached END and whose completion record is not yet posted; its operations are those numbered from
`firstOp` to below `upTo`. `inFrame`: it is a slot of the frame in
progress; `yielded`: its stream had a container withheld in the slot's own, earlier frame (R347). -/
structure EndedSlot where
  stream : Nat
  tenant : Nat
  firstOp : Nat
  upTo : Nat
  overrun : Bool
  inFrame : Bool
  yielded : Bool
  deriving DecidableEq, Repr

/-- R276, R278: the transfer a link sequencer's SEND, RECV or CHORUS has in progress; `dead` once R290 says that it sends or
receives nothing further; `late` once its wait for the surroundings has been reported (R30). -/
structure Transfer where
  kind : Nat
  port : Nat
  cluster : Nat
  desc : Nat
  peer : Nat
  channel : Nat
  tenant : Nat
  cexp : Int
  slot : Nat
  off : Nat
  total : Nat
  done : Nat
  dead : Bool
  late : Bool
  op : Nat
  stream : Nat
  deriving DecidableEq, Repr

/-- One stream sequencer (R220, R227, R231, R232, R239, Table 9.14). Ticks are planned slot-relative ticks (R227). `opFr`, `opLn`,
`opLk`: the opcode of the instruction last issued to each unit (R354). `waitUnit`: the tick at which the next word began to wait, and
whether it waits under R210. `inFrame` and `yielded` as in `EndedSlot`, of the slot in progress. `testEnds`: the ticks, last first, at
which its own test entries ended in the test slot in progress (R240). `frameOf`: the tick at which the frame of the slot last begun began,
`freeAt` the one at which it last reached END (R239). -/
structure Seq where
  running : Bool
  slot : Nat
  start : Nat
  length : Nat
  stretched : Bool
  pc : Nat
  loops : List LoopFrame
  x1 : BitVec 20
  x2 : BitVec 20
  x3 : BitVec 20
  lastTick : Option Nat
  lastIssue : Nat
  waitTarget : Option Nat
  holdFr : Nat
  holdLn : Nat
  holdLk : Nat
  opFr : Nat
  opLn : Nat
  opLk : Nat
  gate : Option (Nat × Nat)
  dmark : Option (Nat × Nat)
  waitUnit : Option (Nat × Bool)
  waitBell : Option (Nat × Nat)
  suspended : Bool
  overrun : Bool
  ops : List (Nat × Nat)
  nextOp : Nat
  firstOp : Nat
  sigs : List (Nat × Nat × Nat)
  ended : List EndedSlot
  transfer : Option Transfer
  warm : Nat
  inFrame : Bool
  yielded : Bool
  testEnds : List Nat
  frameOf : Option Nat
  freeAt : Nat
  deriving DecidableEq, Repr

/-- A sequencer with nothing in progress. -/
def Seq.idle : Seq :=
  { running := false, slot := 0, start := 0, length := 0, stretched := false, pc := 0, loops := [], x1 := 0, x2 := 0, x3 := 0,
    lastTick := none, lastIssue := 0, waitTarget := none, holdFr := 0, holdLn := 0, holdLk := 0, opFr := 0xFF, opLn := 0xFF, opLk := 0xFF, gate := none, dmark := none,
    waitUnit := none, waitBell := none, suspended := false, overrun := false, ops := [], nextOp := 0, firstOp := 0, sigs := [], ended := [],
    transfer := none, warm := 0, inFrame := false, yielded := false, testEnds := [], frameOf := none, freeAt := 0 }

/-- What a stream's next completion record reports (R246, R259, R347). -/
structure StreamFlags where
  poison : Bool
  sat : Bool
  hazard : Bool
  yielded : Bool
  deriving DecidableEq, Repr

/-- R347: what a stream had withheld in the current frame. -/
structure Withheld where
  tenant : Nat
  cls : Nat
  stackBits : Nat
  cause : Nat
  count : Nat
  deriving DecidableEq, Repr

/-- The active part of PLAN_STATE (Table 9.13). -/
inductive PlanMode where
  | none | running | paused | armed
  deriving DecidableEq, Repr

/-- The staging part of PLAN_STATE (Table 9.13). -/
inductive StageMode where
  | empty | loading | staged | refused
  deriving DecidableEq, Repr

/-- The configuration values a plan load reads (Tables 4.5, 5.5, 7.5, R248, R295). -/
structure PlanCfg where
  scaleWindow : Nat
  scaleHeadroom : Nat
  floorMant : Nat
  floorExp : Int
  breakEven : List Nat
  flickMax : Nat
  flickMargin : Nat
  flickVerify : Bool
  ethMode : List Nat
  testSlotMin : Nat
  deriving DecidableEq, Repr

/-- The defaults of Tables 4.5, 5.5, 7.5, 9.13, 11.12. -/
def PlanCfg.default : PlanCfg :=
  { scaleWindow := 4, scaleHeadroom := 72, floorMant := 128, floorExp := -32, breakEven := [255, 255, 224, 192, 160, 255],
    flickMax := 2, flickMargin := 64, flickVerify := true, ethMode := [], testSlotMin := 150000 }

/-- The plan master (R220 to R247). `yields`: the streams that yielded in each earlier frame of the plan, the latest frame first (R347); `stretches`: the stretched clusters of each (R241). -/
structure Plan where
  mode : PlanMode
  stage : StageMode
  active : Option Image
  staged : Option Image
  switchPending : Bool
  pausePending : Bool
  fencePause : Bool
  takeover : Bool
  armedAt : Nat
  armedFrame : Nat
  frame : Nat
  frameTick : Nat
  bells : Tab Nat
  map : List Nat
  stretchNow : List Nat
  testSlot : Bool
  digestSteps : Nat
  digestTensor : Tab (Option Nat)
  digestInterval : Nat
  streams : Tab StreamFlags
  withheld : Tab Withheld
  yields : List (List Nat)
  stretches : List (List Nat)
  altNow : Nat
  alts : List (Nat × Nat)
  cfg : PlanCfg
  stagedCfg : PlanCfg
  deriving DecidableEq, Repr

/-! ## Spawn clusters -/

/-- A pad buffer slot (R114, R55, R116, R260, R282). `retracted`: its tag was set by the retraction of the link container it holds,
which a SEND passes on unchanged (R280). -/
structure PadSlot where
  data : Block
  poison : Bool
  fill : Option Nat
  pend : Option (Nat × Nat)
  retracted : Bool
  deriving DecidableEq, Repr

/-- A slot nothing has written: 256 zero bytes (log 6). -/
def PadSlot.empty : PadSlot := { data := 0, poison := false, fill := none, pend := none, retracted := false }

/-- R126, R192: the scale of an activation group: per-token or an entry, its mantissa, E, the container's EXP, rotation, and
the source by which R149 decides a split (an entry number, or a container's number). -/
structure ActScale where
  perToken : Bool
  mant : Nat
  e : Int
  exp : Int
  rot : Bool
  source : Nat
  deriving DecidableEq, Repr

/-- R142, R143: one entry of a window key. -/
structure KeyEntry where
  pos : Nat
  val : Int
  valid : Bool
  deriving DecidableEq, Repr

/-- A loaded key window (R142): its entries in entry order, its activation scale, and whether a task that loaded it ran on a lane
whose fencing was in progress (R125). -/
structure KeyWindow where
  entries : List KeyEntry
  scale : ActScale
  poison : Bool
  deriving DecidableEq, Repr

/-- One activation scale group on its way into a delivery (R126). -/
structure APiece where
  vals : List Int
  scale : ActScale
  poison : Bool
  deriving DecidableEq, Repr

/-- The scale groups of one XPA to a key row, of `size` positions each, for the dense and keyless paths (R151, R152). -/
structure DenseRun where
  size : Nat
  pieces : List APiece
  deriving DecidableEq, Repr

/-- R144: one row of the key store. `windows` is keyed by position ÷ 32; `runs` are the row's XPAs in order. -/
structure KeyRow where
  windows : Tab KeyWindow
  runs : List DenseRun
  keyless : Bool
  overLength : Bool
  poison : Bool
  count : Nat
  ranges : List Range
  deriving DecidableEq, Repr

def KeyRow.empty : KeyRow :=
  { windows := [], runs := [], keyless := false, overLength := false, poison := false, count := 0, ranges := [] }

/-- R126, R194: one weight scale record and the tile column its group feeds. -/
structure WGroup where
  mant : Nat
  exp : Int
  col : Nat
  deriving DecidableEq, Repr

/-- R193: the held records of one weight delivery; `verify` names the pass and neuron of a flick verification (R181). -/
structure WDelivery where
  seq : Nat
  tile : Nat
  verify : Option (Nat × Nat)
  recs : List WGroup
  deriving DecidableEq, Repr

/-- R193: the held records of one activation delivery. -/
structure ADelivery where
  seq : Nat
  tile : Nat
  recs : List ActScale
  deriving DecidableEq, Repr

/-- What a PACK asked of a closed tile (R225, R346: `desc` and `off` are the effective ones). -/
structure PackReq where
  desc : Nat
  off : Nat
  stats : Bool
  ptok : Bool
  stoch : Bool
  link : Option Nat
  by_ : OpRef
  stream : Nat
  tenant : Nat
  deriving DecidableEq, Repr

/-- Where a packed container goes (R225, R297). -/
inductive PackDest where
  | mem (desc off : Nat)
  | link (port : Nat)
  deriving DecidableEq, Repr

/-- R284: a container in the pack write queue or a link pack queue; `endTick` is the tick at which the drain completes it (R20). -/
structure PackItem where
  id : Nat
  endTick : Nat
  block : Block
  dest : PackDest
  arrived : Bool
  residue : Verdict
  ranges : List Range
  by_ : OpRef
  stream : Nat
  tenant : Nat
  deriving DecidableEq, Repr

/-- R20, R208: a container that the drain of a tile has still to complete: its number, its first feature, its accumulators as the drain
reads them, whether it is the last of its row, and the tick at which the pack unit completes it. -/
structure DrainPiece where
  num : Nat
  first : Nat
  words : List Word
  tail : Bool
  endTick : Nat
  deriving DecidableEq, Repr

/-- A tile scoreboard entry (R206 to R212, R283). `toKeys`: its last XPA loaded a key row; `sparse`: what R132 decided at its first
sparse-eligible weight expansion; `started`: a weight expansion of it has run; `flickPasses`: the passes (by uid) whose gated
instructions fed it; `made`, `drained`: the containers of its drain that are complete and the accumulators of each as they were drained
(R213); `toPack`: those still to be completed; `drainDesc`: the tensor descriptor that the drain packs into. -/
structure Tile where
  uid : Nat
  num : Nat
  named : Bool
  base : Nat
  rows : Nat
  cols : Nat
  stride : Nat
  xt : Int
  stat : Nat
  far : Option Nat
  keep : Bool
  touched : Nat
  poison : Bool
  sat : Bool
  closed : Option PackReq
  ready : Bool
  ranges : List Range
  flickPasses : List Nat
  predicted : Bool
  stream : Nat
  tenant : Nat
  counts : Tab Nat
  fresh : Nat
  govA : Option Nat
  aFormat : Nat
  toKeys : Bool
  sparse : Option Bool
  started : Bool
  drained : List (List Word)
  made : List PackItem
  toPack : List DrainPiece
  drainDesc : Nat
  deriving DecidableEq, Repr

/-- R203, R438: a scratchpad update issued and not yet answered. -/
structure Upd where
  lane : Nat
  idx : Nat
  tile : Nat
  val : Int
  poison : Bool
  sat : Bool
  deriving DecidableEq, Repr

/-- R88, R89, R95, R96: a scale register entry with its tracker state; the history is oldest first. `ready`: ready by a write
or a restore (R96); `written`: written, and not yet replaced by the tracker. -/
structure ScaleEntry where
  val : BitVec 16
  hist : List (BitVec 16)
  ready : Bool
  written : Bool
  owner : Option (Nat × Int)
  qmax : Nat
  satCount : Nat
  stepMax : Option Dyad
  used : Bool
  deriving DecidableEq, Repr

/-- R91: a cleared entry. -/
def ScaleEntry.cleared : ScaleEntry :=
  { val := 0, hist := [], ready := false, written := false, owner := none, qmax := 0, satCount := 0, stepMax := none, used := false }

/-- What a fabric read is for. -/
inductive ReadFor where
  | pad (slot : Nat)
  | restore (tile : Nat) (block : Nat)
  | scale (entry0 nent : Nat) (tseq : Nat) (b : Int) (qmax : Nat) (block : Nat)
  deriving DecidableEq, Repr

/-- R437: a fabric read, waiting to be requested or outstanding. -/
structure ReadReq where
  use : ReadFor
  addr : Nat
  priv : Bool
  by_ : OpRef
  stream : Nat
  tenant : Nat
  deriving DecidableEq, Repr

/-- R225: what an XPW asks for. -/
structure XpwJob where
  c : Nat
  d : Nat
  slot : Nat
  n : Nat
  path : Nat
  trans : Bool
  krows : Bool
  col0 : Nat
  tile : Option Tile
  test : Bool
  verify : Option (Nat × Nat)
  pass : Option Nat
  predicted : Bool
  dmark : Option (Nat × Nat)
  keys : Bool
  deriving DecidableEq, Repr

/-- R225: what an XPA asks for. -/
structure XpaJob where
  c : Nat
  d : Nat
  slot : Nat
  n : Nat
  row : Nat
  dest : Nat
  tile : Option Tile
  test : Bool
  pass : Option Nat
  predicted : Bool
  deriving DecidableEq, Repr

/-- R171: what a FLICK asks for: the descriptors' bits as they stood at its issue, and the pass it began (by uid). -/
structure FlickJob where
  uid : Nat
  fd : Nat
  ad : Nat
  gd : Nat
  aslot : Nat
  gslot : Nat
  rows : Nat
  deriving DecidableEq, Repr

/-- The work of an instruction that the lanes have accepted; `rows`: a TOPEN's reset of the key rows behind it (R448). -/
inductive LaneWork where
  | xpw (j : XpwJob)
  | xpa (j : XpaJob)
  | flick (j : FlickJob)
  | rows
  deriving DecidableEq, Repr

/-- R30: an instruction that the lanes have accepted and whose work waits: its opcode, the slot of the program that issued it, the pad
slots it still awaits each with the tick at which its E0 needs it, and whether its wait has been reported. -/
structure LaneJob where
  work : LaneWork
  op : Nat
  inSlot : Nat
  needs : List (Nat × Nat)
  late : Bool
  deriving DecidableEq, Repr

/-- R327: a read response that its queue holds until the cluster takes it: the read, and whether the response was uncorrectable
(R31). -/
structure Arrived where
  req : ReadReq
  ue : Bool
  deriving DecidableEq, Repr

/-- R282, R327: a link container for a pad slot that its queue holds until the cluster takes it: the slot, the pending tag, the poison
tag and whether a retraction set it (R282), the transfer's port, operation and stream. -/
structure PadIn where
  slot : Nat
  pend : Option (Nat × Nat)
  poison : Bool
  retracted : Bool
  port : Nat
  by_ : OpRef
  stream : Nat
  deriving DecidableEq, Repr

/-- A fabric write on its way: waiting in the cluster-to-fabric queue, then outstanding at the port. -/
structure WriteReq where
  word : Word
  data : Block
  by_ : OpRef
  stream : Nat
  isContainer : Bool
  deriving DecidableEq, Repr

/-- R176, R188: a flick pass, `uid` the how manieth of its cluster, and its skip mask; the mask has bit n set where neuron NBASE + n is skipped. `busyTo` is the tick at
which its ceiling ends, `waiting` that its containers have not all been read (R30). -/
structure FlickPass where
  uid : Nat
  pass : Nat
  fdesc : Nat
  mode : Nat
  nbase : Nat
  ncount : Nat
  rows : Nat
  thetaM : Int
  thetaE : Int
  skip : Nat
  released : Bool
  poisoned : Bool
  residueFail : Bool
  verify : List Nat
  evaluated : Nat
  rangeMarks : Nat
  ranges : List Range
  busyTo : Nat
  waiting : Bool
  deriving DecidableEq, Repr

/-- R181: a verification accumulator of a neuron: per row, the exact sum in units of 2^-512. -/
structure VerifyAcc where
  pass : Nat
  neuron : Nat
  sums : Tab Int
  deriving DecidableEq, Repr

/-- R366 to R368: the repair state of one bank: rows remapped (with the spares each consumed), spares used or retired. -/
structure BankRepair where
  rows : Tab Nat
  sparesUsed : Nat
  deriving DecidableEq, Repr

/-- One spawn cluster (Table 5.1). `fillTick`: the tick of the pad buffer's last fabric fill (R22). `nextPass`: the flick passes begun.
`lane`: the instructions whose work the lanes have still to do, in order of issue (R30). -/
structure Cluster where
  pad : Tab PadSlot
  padBanksFenced : Nat
  lanesFenced : Nat
  spareFor : Option Nat
  stretched : Bool
  fenced : Bool
  fenceKept : Bool
  remapLane : Option Nat
  poisonLanes : List Nat
  wseq : Nat
  aseq : Nat
  wrecs : List WDelivery
  arecs : List ADelivery
  key0 : KeyRow
  key1 : KeyRow
  tiles : Tab Tile
  nextTile : Nat
  updates : List Upd
  scale : Tab ScaleEntry
  packQueue : List PackItem
  nextItem : Nat
  digest : Tab Nat
  digestMissed : Tab Nat
  flickPasses : Tab FlickPass
  nextPass : Nat
  verify : List VerifyAcc
  flickFenced : Bool
  readWait : List (ReadReq × Word)
  reads : List ReadReq
  arrived : List Arrived
  toPad : List PadIn
  fillTick : Option Nat
  toWrite : List WriteReq
  writes : List WriteReq
  lane : List LaneJob
  deriving DecidableEq, Repr

def Cluster.idle : Cluster :=
  { pad := [], padBanksFenced := 0, lanesFenced := 0, spareFor := none, stretched := false, fenced := false, fenceKept := false,
    remapLane := none, poisonLanes := [], wseq := 0, aseq := 0, wrecs := [], arecs := [], key0 := .empty, key1 := .empty,
    tiles := [], nextTile := 0, updates := [], scale := [], packQueue := [], nextItem := 0, digest := [], digestMissed := [],
    flickPasses := [], nextPass := 0, verify := [], flickFenced := false, readWait := [], reads := [], arrived := [], toPad := [], fillTick := none, toWrite := [], writes := [], lane := [] }

/-! ## Link ports and ordering units -/

/-- R277, R282: a container in the receive buffer; `dropped` keeps the position of one that was dropped (R275); `counted`: FA_HEADER
advanced for it at its arrival (R85). -/
structure RxItem where
  block : Block
  channel : Nat
  seq : Nat
  verdict : Verdict
  hop : Nat
  sat : Bool
  dropped : Bool
  counted : Bool
  deriving DecidableEq, Repr

/-- R281: a container sent and not yet settled: its verdict depends on its makers' residue checks (a pack unit c, or 256 + port for a
chorus engine, and the item) and on its ranges. `stream`: that of the slot that sent it (R259). -/
structure TxItem where
  seq : Nat
  prov : Bool
  verdict : Verdict
  makers : List (Nat × Nat)
  ranges : List Range
  stream : Nat
  deriving DecidableEq, Repr

/-- R284, R301: a container for memory from a link or a chorus engine, held until its verdict settles: whether it has crossed its
queue, its verdict, the residue checks and the ranges it still depends on. -/
structure HoldItem where
  block : Block
  arrived : Bool
  verdict : Verdict
  makers : List (Nat × Nat)
  ranges : List Range
  cluster : Nat
  desc : Nat
  off : Nat
  by_ : OpRef
  stream : Nat
  tenant : Nat
  deriving DecidableEq, Repr

/-- R298 to R301: a chorus output: its verdict, the residue checks and the ranges it still depends on; whether an input or sum of it
saturated (R299), and the stream of the slot (R259). -/
structure ChItem where
  id : Nat
  block : Block
  verdict : Verdict
  makers : List (Nat × Nat)
  ranges : List Range
  hop : Nat
  sat : Bool
  stream : Nat
  deriving DecidableEq, Repr

/-- One link port (R268, Table 11.12). `rxPoisoned`: open sequence numbers whose container was poisoned at its arrival (R303);
`owed`: resynchronisation frames that a test slot holds back (R240); `chPaired`: the pairs combined for the CHORUS in progress and those
that follow it in the slot (R300); `chSat`: a container already sent of it was saturated (R299); `epochResync`: an epoch write of the
frame in progress made it resynchronise (R303); `heldEpoch`: the epoch of the acknowledge that made it HELD (R291). -/
structure Port where
  layerUp : Bool
  st : Nat
  heldEpoch : Nat
  fenced : Bool
  txF : Nat
  txC : Nat
  window : List TxItem
  rxF : Nat
  rxC : Nat
  rxV : Nat
  rxOpen : List Nat
  rxPoisoned : List Nat
  owed : List Nat
  buf : List RxItem
  hold : List HoldItem
  chOut : List ChItem
  nextCh : Nat
  chPaired : Nat
  partnerSeen : Bool
  chSat : Bool
  epochResync : Bool
  stalled : Option Nat
  ethMode : Nat
  ethType : Nat
  ethDst : Nat
  ethSrc : Nat
  ethTag : Nat
  acceptLocal : Nat
  deriving DecidableEq, Repr

def Port.down : Port :=
  { layerUp := false, st := 0, heldEpoch := 0, fenced := false, txF := 0, txC := 0, window := [], rxF := 0, rxC := 0, rxV := 0, rxOpen := [],
    rxPoisoned := [], owed := [], buf := [], hold := [], chOut := [], nextCh := 0, chPaired := 0, partnerSeen := false, chSat := false, epochResync := false, stalled := none,
    ethMode := 0, ethType := 0x88B5, ethDst := 0, ethSrc := 0, ethTag := 0, acceptLocal := 0x1001F03FE }

/-- R262, R265, R439: one expand-and-add word issued on a lane and not yet acknowledged. -/
structure EaWord where
  lane : Nat
  word : Word
  value : Word
  by_ : OpRef
  deriving DecidableEq, Repr

/-- A last-hop chorus output or a far-target update waiting in the ordering units' hold (R284). -/
structure EaHold where
  queue : Nat
  arrived : Bool
  block : Option Block
  target : Nat
  index : Nat
  val : Int
  exp : Int
  ranges : List Range
  verdict : Verdict
  makers : List (Nat × Nat)
  by_ : OpRef
  stream : Nat
  tenant : Nat
  cluster : Nat
  deriving DecidableEq, Repr

/-- One memory-side ordering unit: lanes outstanding in order (R265, R439). -/
structure Ordering where
  lanes : List EaWord
  deriving DecidableEq, Repr

/-- One inter-island queue (R326): its entries' words as stored (64 data bits and the check byte), what each is for; the entries
that a producer holds because the queue is full (R334); the row of its oldest entry; for the queues whose words come with the read
(log 6), the words of the packet already read, those still to discard and whether it is a dictionary reply (R333). -/
structure QueueSt where
  entries : List (List (BitVec 72))
  slots : List Nat
  waiting : List (List (BitVec 72) × Nat)
  head : Nat
  read : Nat
  discard : Nat
  reply : Bool
  xoff : Bool
  deriving DecidableEq, Repr

def QueueSt.empty : QueueSt := { entries := [], slots := [], waiting := [], head := 0, read := 0, discard := 0, reply := false, xoff := false }

/-! ## Faults, history, tests, start, dictionary, twin, time -/

/-- A report in the reporting queue (R354): forced (R364), from a failing test item (R382), the bank and logical row that a row test names. -/
structure Report where
  d : Detection
  forced : Bool
  test : Bool
  rowTest : Option (Nat × Nat)
  time : Nat
  frame : Nat
  deriving DecidableEq, Repr

/-- R359, R360: an acknowledgement on its way to the collector. -/
inductive Ack where
  /-- ACK_SOURCE -/
  | source (value : Nat)
  /-- ACK_ALL -/
  | all (value : Nat)
  /-- ACK_RECORD -/
  | record (value : Nat)
  /-- by policy: the source and the class -/
  | policy (source : Nat) (cls : FaultClass)
  deriving DecidableEq, Repr

/-- R356: an acknowledgement that arrived behind `ahead` reports that the collector has not processed. -/
structure AckWait where
  ahead : Nat
  ack : Ack
  deriving DecidableEq, Repr

/-- R358, Table 15.14: the collector's state of one source. -/
structure SrcState where
  corr : Bool
  cont : Bool
  fenced : Bool
  kept : Bool
  watch : Bool
  count : Nat
  corrAccess : Nat
  contAccess : Nat
  contRow : Bool
  deriving DecidableEq, Repr

def SrcState.clear : SrcState :=
  { corr := false, cont := false, fenced := false, kept := false, watch := false, count := 0, corrAccess := 0, contAccess := 0,
    contRow := false }

/-- R366, R367: a row found failing: its source, bank and logical row. -/
structure FailingRow where
  source : Nat
  bank : Nat
  row : Nat
  deriving DecidableEq, Repr

/-- The fault collector and the spare rows (15): the reports and the acknowledgements in order of arrival (R356), the sources' state,
the failing rows and repairs, and the units that overran in the frame (R325). -/
structure Faults where
  reports : List Report
  acks : List AckWait
  src : Tab SrcState
  fatal : Bool
  failing : List FailingRow
  repairs : Tab BankRepair
  overran : List Nat
  deriving DecidableEq, Repr

/-- The history of both twins (R383); `unsent` is the SEQ from which on the twin has not been sent the own entries (R315). -/
structure Hist where
  own : List HistEntry
  twin : List HistEntry
  nextSeq : Nat
  unsent : Nat
  deriving DecidableEq, Repr

/-- A patch slot of the identity block (R391, R402). State: 0 empty, 1 active, 2 trial, 3 previous, 4 rejected. -/
structure PatchSlot where
  state : Nat
  imageId : BitVec 32
  length : Nat
  digest : BitVec 384
  deriving DecidableEq, Repr

def PatchSlot.empty : PatchSlot := { state := 0, imageId := 0, length := 0, digest := 0 }

/-- A patch slot's content in the flash, as the boot engine finds it (R395): length and digest, and what its header names. -/
structure PatchImage where
  length : Nat
  digest : BitVec 384
  config : Nat
  romId : Nat
  deriving DecidableEq, Repr

/-- R391: the content of the identity block. -/
structure Ident where
  slotA : PatchSlot
  slotB : PatchSlot
  tried : Bool
  idOverride : BitVec 16
  lastEpoch : BitVec 12
  bootCount : BitVec 16
  deriving DecidableEq, Repr

def Ident.empty : Ident :=
  { slotA := .empty, slotB := .empty, tried := false, idOverride := 0xFFFF, lastEpoch := 0, bootCount := 0 }

/-- R391: one copy of the identity block whose CRC is valid. -/
structure IdentCopy where
  seq : BitVec 32
  content : Ident
  deriving DecidableEq, Repr

/-- What the flash keeps across power (Table 17.1): the two copies of the identity block (none: the CRC fails), the patch slots (none:
nothing readable), the ring of log entries and the number of entries written to it (R400). The history and the packages stand in `Hist`
and `Tests`; `aside` holds those of a flash that a start found unusable (R390). -/
structure Flash where
  copyA : Option IdentCopy
  copyB : Option IdentCopy
  imgA : Option PatchImage
  imgB : Option PatchImage
  ring : List (BitVec 512)
  ringNext : Nat
  aside : Option (Hist × Tab Package)
  deriving DecidableEq, Repr

/-- A flash as delivered: one valid copy of an empty identity block (log 1). -/
def Flash.empty : Flash :=
  { copyA := some { seq := 0, content := .empty }, copyB := none, imgA := none, imgB := none, ring := [], ringNext := 0, aside := none }

/-- A flash write in progress, in order (R391, R402, R386): a patch image into slot B (true) or A with its identity entry, a package, the
identity block, which may be an FW_COMMIT's (R404). -/
inductive FlashJob where
  | patch (slotB : Bool) (entry : PatchSlot) (image : PatchImage)
  | package (slot : Nat) (p : Package)
  | ident (content : Ident) (commit : Bool)
  deriving DecidableEq, Repr

/-- Test content and scheduling (R379 to R389): installed packages; by slot the package in force in test slots and the digest that the
twin has measured (R386); the staged image; the image a follower passed on; packages being written to flash; the sources due in the test
slot in progress, those tested in it, the ticks between which it runs; the sources deferred to the next one (R381); and those that
WATCH_SET named, with the ones whose cluster was fenced then (R388). -/
structure Tests where
  packages : Tab Package
  effective : Tab Package
  measuredTwin : Tab (BitVec 384)
  staging : Option (List Byte)
  fromFollower : Option (List Byte)
  pending : Tab Package
  refusal : Nat
  watchSet : List Nat
  watchWait : List Nat
  deferred : List Nat
  due : List Nat
  tested : List Nat
  slotFrom : Nat
  slotTo : Nat
  deriving DecidableEq, Repr

/-- Table 17.2: where a start stands. -/
inductive Phase where
  /-- filtered PWR_OK low -/
  | off
  /-- steps 1 to 5: attempt in progress, the ROM responder answers -/
  | attempt
  /-- step 7: start tests -/
  | tests
  /-- step 8: twin handshake -/
  | handshake
  /-- step 10: waiting for the epoch -/
  | epochWait
  /-- step 11 reached -/
  | ready
  /-- R396 -/
  | bootHold
  /-- R394: WARM_N low -/
  | quiesced
  deriving DecidableEq, Repr

/-- R395: what an attempt releases. -/
inductive Candidate where
  | trial | active | previous | rom
  deriving DecidableEq, Repr

/-- Start, identity block and moult (17). `ident` is the identity block as the instance works on it; `sanityEnd` is the last tick of a warm
start's sanity subset (Table 17.3); `heldFrom` is the phase in which WARM_N fell; `warmPending` that it fell while an install or FW_COMMIT
was in progress, and whether it has been released since (R404); `attemptFault` that a fatal fault was raised against the controller or the
dictionary path in the attempt (R395). -/
structure Boot where
  phase : Phase
  warm : Bool
  nodeId : BitVec 7
  twinIdx : Bool
  cands : List Candidate
  attempts : Nat
  failed : Nat
  running : Candidate
  runningSlot : Nat
  ident : Ident
  flash : Flash
  fwStaging : Option (List Byte)
  fwRefusal : Nat
  jobs : List FlashJob
  log : List (BitVec 512)
  epochGiven : Option Nat
  sanityEnd : Option Nat
  heldFrom : Phase
  warmPending : Option Bool
  attemptFault : Bool
  deriving DecidableEq, Repr

/-- R411: a read snapshot of a requester. -/
structure Snapshot where
  key : Nat
  bytes : List Nat
  deriving DecidableEq, Repr

/-- R411: an open segmented write. -/
structure OpenWrite where
  key : Nat
  by_ : Requester
  total : Nat
  bytes : List Byte
  deriving DecidableEq, Repr

/-- R412: the last reply to a source node. -/
structure Kept where
  tag : BitVec 11
  payload : List Byte
  reply : BitVec 29 × List Byte
  deriving DecidableEq, Repr

/-- One register-window channel (R415). -/
structure WinChannel where
  sel : BitVec 32
  off : BitVec 32
  len : BitVec 32
  error : Nat
  type : Nat
  valid : Nat
  total : Nat
  busy : Bool
  data : List Byte
  deriving DecidableEq, Repr

def WinChannel.reset : WinChannel :=
  { sel := 0, off := 0, len := 0, error := 0, type := 0, valid := 0, total := 0, busy := false, data := List.replicate 64 0 }

/-- R413: the NOTIFY window of a code; the events since its last NOTIFY, the object and time of the latest; `held`: one that NOTE_MASK
selected has not left yet. -/
structure NoteWindow where
  running : Bool
  held : Bool
  count : Nat
  index : Nat
  sub : Nat
  time : Nat
  deriving DecidableEq, Repr

def NoteWindow.idle : NoteWindow := { running := false, held := false, count := 0, index := 0, sub := 0, time := 0 }

/-- R306: a shared write whose reply waits for the follower's acknowledgement: its generation once assigned, object, value, requester,
request (none from a row of its own), and bytes. -/
structure Waiting where
  gen : Option Nat
  key : Nat
  value : Nat
  by_ : Requester
  req : Option CanReq
  size : Nat
  deriving DecidableEq, Repr

/-- R412: a request in the management port's buffer, with its service, and whether a presence window was open at its last frame (R417). -/
structure Buffered where
  service : Nat
  req : CanReq
  presence : Bool
  deriving DecidableEq, Repr

/-- The dictionary's paths (18, 19). `canNom`, `canData`: the bit rates in force (R419); `canBuf`: the buffered requests (R412);
`residueBad`: the syndrome of a residue mismatch on the request that the path carries next (R408); `packetBad`: that the packet of that
request was bad at its island (R333). -/
structure Dict where
  snaps : List (Requester × Snapshot)
  opens : List OpenWrite
  kept : Tab Kept
  win0 : WinChannel
  win1 : WinChannel
  selectors : List (Requester × Tab Nat)
  notes : Tab NoteWindow
  busOff : Bool
  waiting : List Waiting
  canNom : Nat
  canData : Nat
  canBuf : List Buffered
  residueBad : Option (BitVec 16)
  packetBad : Bool
  deriving DecidableEq, Repr

/-- Table 18.8: the presence machine. -/
inductive PresState where
  | armed | qualifying | opened | held
  deriving DecidableEq, Repr

/-- R416: presence. -/
structure Presence where
  st : PresState
  low : Bool
  rearmed : Bool
  windowOpen : Bool
  windowEnd : Nat
  deriving DecidableEq, Repr

/-- R306: a shared write accepted and waiting: its generation, object, value, the frame starts still to pass, and whether it came
from the follower. -/
structure SharedWrite where
  gen : Nat
  key : Nat
  value : Nat
  starts : Nat
  passedOn : Bool
  deriving DecidableEq, Repr

/-- Table 12.3: roles. -/
inductive Role where
  | pairedAuth | pairedFollower | splitAuth | splitFollower | sole | joining
  deriving DecidableEq, Repr

/-- Twin pairing (12). `heard`, `heardSplit`: a valid croak, one of a split role, arrived in the window in progress; `authPending`:
the value of a TWIN_AUTH write in progress, or of one whose outcome the other's next croak has still to show; `authAt`: the croak window at whose
end it takes effect; `authSure`: the other twin has agreed (log 97); `inbox`: what arrived while this twin was warm-starting and could drive
nothing (R443); `mirrorInst`: the twin's identifier that a rejoin will record. -/
structure Twin where
  role : Role
  auth : Bool
  croakSeq : BitVec 16
  missedRun : Nat
  validRun : Nat
  heard : Bool
  heardSplit : Bool
  skipWindow : Bool
  silent : Bool
  tries : Nat
  acked : Bool
  held : List (Nat × Nat)
  shared : List SharedWrite
  mirroring : Bool
  mirrorIn : List (Nat × Nat)
  mirrorDone : Bool
  mirrorInst : Nat
  authPending : Option Nat
  authAt : Nat
  authSure : Bool
  inbox : List TwinMsg
  gen : Nat
  deadDies : Bool
  deriving DecidableEq, Repr

/-- The time base and ticks (R13, R221, R322, R444); `fresh`: the loaded frame completed in the REF_CLK cycle in progress (R446); and the
tick at which the pulse of IRQ_CPL_N ends (R443). -/
structure Clock where
  tick : Nat
  sub : Nat
  time : Nat
  hold : Nat
  loaded : Option Nat
  fresh : Bool
  cplEnd : Nat
  deriving DecidableEq, Repr

/-- One island (R321, R323): its droop detector's level, and whether a droop was reported, or a breach cycle found, in the 1 µs window in
progress. -/
structure Island where
  drooping : Bool
  stretched : Bool
  breached : Bool
  deriving DecidableEq, Repr

/-- One memory stack's thermal pins and state (R342, R343), and the tick at which it last became normal again (R348). -/
structure Stack where
  warnLow : Bool
  critLow : Bool
  state : Nat
  level : Nat
  sampled : Nat
  cooled : Option Nat
  deriving DecidableEq, Repr

/-- What the block drives on its ports (Tables 20.1, 20.5, 20.7). -/
inductive Out where
  | fabricRead (c : Nat) (word : Word)
  | fabricWrite (c : Nat) (word : Word) (data : Block)
  | weight (c gs seq : Nat) (poison : Bool) (nz sgn : BitVec 1024)
  | activation (c seq : Nat) (poison : Bool) (data : BitVec 3072)
  | spadUpdate (c lane idx : Nat)
  | spadNew (c lane idx : Nat) (word : Word)
  | spadRead (c idx cnt : Nat)
  | spadWrite (c idx : Nat) (words : List Word)
  | stats (c idx : Nat) (record : BitVec 256)
  | frame (p : Nat) (f : Frame) (tci : Option (BitVec 16)) (src : BitVec 48)
  | linkSignalDown (p : Nat)
  | twin (word : BitVec 72)
  | twinItem (m : TwinMsg) (word : BitVec 72)
  | expandAdd (u lane : Nat) (word value : Word)
  | can (id : BitVec 29) (payload : List Byte) (rateSwitch : Bool)
  | completion (word : Word) (offset : Nat) (record : BitVec 128)
  | noteRead (channel : Bool) (value : Nat)
  | flash (off len : Nat)
  | histMirror (word : Word) (offset : Nat) (entry : BitVec 384)
  deriving DecidableEq, Repr

/-- The state of one instance. -/
structure State where
  hw : Hw
  objs : Tab Nat
  clock : Clock
  boot : Boot
  dict : Dict
  pres : Presence
  faults : Faults
  hist : Hist
  tests : Tests
  plan : Plan
  seqs : Tab Seq
  clusters : Tab Cluster
  ports : Tab Port
  eaHold : List EaHold
  ord0 : Ordering
  ord1 : Ordering
  queues : Tab QueueSt
  fcHigh : Nat
  fcLow : Nat
  islands : Tab Island
  stackTab : Tab Stack
  twin : Twin
  out : List Out
  freeIdx : Nat
  pending : List Instr
  deriving DecidableEq, Repr

/-- The integration values of the spec's examples, T32 (log 2). -/
def Hw.reference : Hw :=
  { variant := .t32, fabricRdLat := 400, fabricWrLat := 256, spadRmwLat := 24, linkRate := 100000, stackRate := 3200000,
    arrayRetLat := 32, linkLat := 500, fcSkid := 12 }

/-- No plan; the configuration values in force are the defaults of Tables 4.5, 5.5, 7.5. -/
def Plan.reset : Plan :=
  { mode := .none, stage := .empty, active := none, staged := none, switchPending := false, pausePending := false,
    fencePause := false, takeover := false, armedAt := 0, armedFrame := 0, frame := 0, frameTick := 0, bells := [], map := [], stretchNow := [],
    testSlot := false, digestSteps := 0, digestTensor := [], digestInterval := 4096, streams := [], withheld := [], yields := [], stretches := [], altNow := 0,
    alts := [], cfg := PlanCfg.default, stagedCfg := PlanCfg.default }

/-- The block before its first cold start: filtered PWR_OK low, every object at the Default column of its table (log 1). -/
def State.reset : State :=
  { hw := Hw.reference
    objs := []
    clock := { tick := 0, sub := 0, time := 0, hold := 0, loaded := none, fresh := false, cplEnd := 0 }
    boot := { phase := .off, warm := false, nodeId := 0, twinIdx := false, cands := [], attempts := 0, failed := 0, running := .rom,
              runningSlot := 0, ident := .empty, flash := .empty, fwStaging := none, fwRefusal := 0, jobs := [], log := [],
              epochGiven := none, sanityEnd := none, heldFrom := .off, warmPending := none, attemptFault := false }
    dict := { snaps := [], opens := [], kept := [], win0 := .reset, win1 := .reset, selectors := [], notes := [], busOff := false,
              waiting := [], canNom := 500, canData := 2000, canBuf := [], residueBad := none, packetBad := false }
    pres := { st := .armed, low := false, rearmed := false, windowOpen := false, windowEnd := 0 }
    faults := { reports := [], acks := [], src := [], fatal := false, failing := [], repairs := [], overran := [] }
    hist := { own := [], twin := [], nextSeq := 0, unsent := 0 }
    tests := { packages := [], effective := [], measuredTwin := [], staging := none, fromFollower := none, pending := [], refusal := 0, watchWait := [],
               watchSet := [], deferred := [], due := [], tested := [], slotFrom := 0, slotTo := 0 }
    plan := Plan.reset
    seqs := []
    clusters := []
    ports := []
    eaHold := []
    ord0 := { lanes := [] }
    ord1 := { lanes := [] }
    queues := []
    fcHigh := 48
    fcLow := 32
    islands := []
    stackTab := []
    twin := { role := .joining, auth := false, croakSeq := 0, missedRun := 0, validRun := 0, heard := false,
              heardSplit := false, skipWindow := false, silent := false, tries := 0, acked := false, held := [], shared := [], mirroring := false,
              mirrorIn := [], mirrorDone := false, mirrorInst := 0xFFFF, authPending := none, authAt := 0, authSure := false, inbox := [], gen := 0, deadDies := false }
    out := []
    freeIdx := 0
    pending := [] }

end Sys2Proof.Machine
end

