-- ==== Sys2Proof/Machine/Objects.lean ====
section
/-! DEFINITION. Which units a configuration has (Table 0.1, R9, R351, R421) and the object dictionary's map: index,
subindex, type, access and default of every object (Tables 18.1, 18.2, 19.1). -/

namespace Sys2Proof.Machine

/-! ## Sizes of a configuration (R7) -/

def nClusters (hw : Hw) : Nat := match hw.variant with | .t8 => 8 | .t16 => 16 | .t32 => 32
def nStacks (hw : Hw) : Nat := match hw.variant with | .t8 => 1 | .t16 => 2 | .t32 => 4
def nPorts (hw : Hw) : Nat := match hw.variant with | .t8 => 4 | .t16 => 8 | .t32 => 16
def nIslands (hw : Hw) : Nat := match hw.variant with | .t8 => 16 | .t16 => 24 | .t32 => 40
def nFabric (hw : Hw) : Nat := nClusters hw / 4

/-- Table 13.1, R320: the island exists in the configuration. -/
def islandExists (hw : Hw) (i : Nat) : Bool :=
  if i < 16 then i < nClusters hw / 2
  else if i < 24 then i - 16 < nFabric hw
  else if i < 32 then i - 24 < nPorts hw / 2
  else i < 40

/-- R220: the sequencer exists in the configuration. -/
def seqExists (hw : Hw) (q : Nat) : Bool :=
  if q < 32 then q < nClusters hw else if q < 48 then q - 32 < nPorts hw else q == 48

/-- Table 13.2: the islands of the plan-master command queues, in order. -/
def commandIsland (n : Nat) : Nat := if n < 16 then n else n + 8

/-- Table 13.2: the queue number is in use in the configuration. -/
def queueExists (hw : Hw) (q : Nat) : Bool :=
  if q < 0xA0 then q % 32 < nClusters hw
  else if q < 0xB0 then q - 0xA0 < nPorts hw
  else if q < 0xD8 then islandExists hw (q - 0xB0)
  else if q < 0x100 then islandExists hw (q - 0xD8)
  else if q < 0x104 then true
  else if q < 0x11C then islandExists hw (commandIsland (q - 0x104))
  else if q < 0x134 then islandExists hw (commandIsland (q - 0x11C))
  else false

/-- R351, Tables 15.1 and 15.2: the source identifier exists in the configuration. -/
def srcExists (hw : Hw) (s : Nat) : Bool :=
  let t := s / 256
  if t ≤ 2 then s < 17 * nClusters hw
  else if t == 3 then s % 256 < nClusters hw
  else if t == 4 then s % 256 / 8 < nClusters hw && s % 8 != 7
  else if t == 5 then s % 256 / 2 < nClusters hw
  else if t == 6 then s % 256 / 4 < nPorts hw
  else if t == 7 || t == 8 then queueExists hw (s - 0x700)
  else if t == 9 then s % 256 ≤ 0xC
  else if t == 10 then islandExists hw (s % 256)
  else false

/-- Every source identifier of the configuration, ascending. -/
def allSources (hw : Hw) : List Nat := (List.range 0xB00).filter (srcExists hw)

/-! ## The dictionary's map -/

/-- R406, Table 18.1. -/
inductive Ty where
  | u8 | u16 | u32 | u64 | i8 | bool | time64 | str | blob
  deriving DecidableEq, Repr

/-- R407, Table 18.2. -/
inductive Acc where
  | ro | rw | wo | rwp | rwt | rc
  deriving DecidableEq, Repr

/-- Table 18.1: the type code. -/
def Ty.code : Ty → Nat
  | .u8 => 1 | .u16 => 2 | .u32 => 3 | .u64 => 4 | .i8 => 5 | .bool => 9 | .time64 => 10 | .str => 11 | .blob => 12

/-- A run of objects of one kind: `n` indices from `idx`, subindices `lo` to `hi`. -/
structure Fam where
  idx : Nat
  n : Nat
  lo : Nat
  hi : Nat
  ty : Ty
  acc : Acc
  len : Nat
  dflt : Nat
  deriving DecidableEq, Repr

def Ty.size : Ty → Nat
  | .u8 => 1 | .u16 => 2 | .u32 => 4 | .u64 => 8 | .i8 => 1 | .bool => 1 | .time64 => 8 | .str => 0 | .blob => 0

/-- One object, or a run of subindices of one index. -/
def one (idx lo hi : Nat) (ty : Ty) (acc : Acc) (dflt : Nat := 0) : Fam := ⟨idx, 1, lo, hi, ty, acc, ty.size, dflt⟩

/-- A BLOB or STR of `len` bytes. -/
def blob (idx lo hi len : Nat) (acc : Acc) (dflt : Nat := 0) : Fam := ⟨idx, 1, lo, hi, .blob, acc, len, dflt⟩

/-- Object key of index:subindex. -/
def key (idx sub : Nat) : Nat := idx * 256 + sub

/-- Tables 17.7, 19.3, 19.4, 1.7, 5.6, 13.7, 18.11, 19.5. -/
def famsA (hw : Hw) : List Fam :=
  let c := nClusters hw
  [ one 0x1000 1 2 .u32 .ro, ⟨0x1000, 1, 3, 3, .str, .ro, 21, 0⟩,
    ⟨0x1000, 1, 4, 4, .str, .ro, (if hw.variant = .t8 then 15 else 16), 0⟩, one 0x1000 5 5 .u8 .ro,
    one 0x1008 1 1 .u16 .ro, one 0x1008 2 2 .u16 .rwp 0xFFFF, one 0x1010 1 1 .u8 .ro, one 0x1010 2 2 .u16 .ro 0xFFFF,
    blob 0x1100 1 8 48 .ro, blob 0x1101 1 1 49 .wo, one 0x1110 1 1 .u32 .ro, one 0x1110 2 2 .u32 .rw, blob 0x1110 3 3 64 .ro,
    one 0x1200 1 1 .u8 .ro, one 0x1200 2 5 .u32 .ro,
    one 0x2000 1 1 .u8 .ro, one 0x2000 2 2 .u16 .ro, one 0x2000 3 3 .u8 .ro, one 0x2000 4 4 .u32 .ro, one 0x2000 5 7 .u8 .ro,
    one 0x2000 8 9 .u16 .ro, one 0x2000 10 11 .u8 .ro,
    one 0x2001 1 3 .u16 .ro, one 0x2001 4 5 .u32 .ro, one 0x2001 6 6 .u8 .ro, one 0x2001 7 8 .u16 .ro, one 0x2001 9 9 .u8 .ro,
    one 0x2010 1 c .u32 .ro, one 0x2011 1 c .u64 .ro, one 0x2012 1 c .u32 .ro,
    one 0x2020 1 40 .u16 .ro, one 0x2021 1 40 .u64 .ro, one 0x2022 1 40 .u32 .ro, one 0x2023 1 1 .u32 .ro,
    one 0x2030 1 1 .u8 .rw 48, one 0x2030 2 2 .u8 .rw 32, one 0x2031 1 (nFabric hw) .u64 .ro,
    ⟨0x2040, 3, 1, 128, .u32, .ro, 4, 0⟩, ⟨0x2044, 3, 1, 128, .u32, .ro, 4, 0⟩, ⟨0x2048, 3, 1, 128, .u32, .ro, 4, 0⟩,
    one 0x2050 1 1 .u16 .rw 500, one 0x2050 2 2 .u16 .rw 2000, one 0x2050 3 3 .u8 .rw 0x7F, one 0x2050 4 4 .u16 .rw 0x1FE,
    one 0x2050 5 5 .u16 .rc, one 0x2050 6 6 .u16 .ro, one 0x2050 7 7 .u64 .ro, one 0x2050 8 10 .u32 .ro,
    one 0x2060 1 1 .time64 .ro, one 0x2060 2 2 .u32 .ro, one 0x2060 3 3 .u64 .ro, one 0x2070 1 1 .u8 .rw 7 ]

/-- Tables 9.13, 14.7, 10.6, 19.6, 4.5, 4.6, 5.5, 6.9, 7.5. -/
def famsB (hw : Hw) : List Fam :=
  let c := nClusters hw
  [ one 0x2400 1 1 .u64 .rw, one 0x2400 2 2 .u8 .wo, one 0x2400 3 4 .u8 .ro, one 0x2400 5 7 .u32 .ro, one 0x2400 8 8 .time64 .rw,
    one 0x2400 9 9 .u64 .ro, blob 0x2400 10 10 48 .ro, one 0x2400 11 11 .u32 .ro, blob 0x2400 12 12 32 .ro (2 ^ 256 - 1),
    one 0x2400 13 13 .u64 .ro, one 0x2410 1 1 .u32 .rw 150000,
    one 0x2411 1 49 .u64 .ro, one 0x2412 1 49 .u64 .ro, one 0x2413 1 49 .u32 .ro,
    one 0x2500 1 (nStacks hw) .u8 .ro, one 0x2501 1 (nStacks hw) .u8 .rwt, one 0x2502 1 1 .u16 .rwt 100, one 0x2503 1 16 .u32 .rw,
    one 0x2503 17 17 .u16 .ro, one 0x2504 1 1 .u32 .ro, blob 0x2505 1 32 16 .ro, one 0x2506 1 1 .u32 .ro, blob 0x2507 1 32 16 .ro,
    one 0x2508 1 1 .u64 .ro, one 0x2508 2 3 .u32 .ro,
    ⟨0x3000, 64, 1, 1, .blob, .rw, 16, 0⟩, one 0x3070 1 3 .u64 .ro, one 0x3070 4 5 .u32 .ro, one 0x3080 1 1 .u16 .ro,
    ⟨0x3081, 4, 1, 64, .u64, .rw, 8, 0⟩, one 0x3090 1 1 .u32 .ro, blob 0x3091 1 32 16 .ro, ⟨0x3100, 2, 1, 128, .u32, .ro, 4, 0⟩,
    one 0x3110 1 4 .u64 .ro,
    one 0x4000 1 1 .u8 .rw 4, one 0x4000 2 2 .u8 .rw 72, one 0x4000 3 3 .u8 .rw 0x80, one 0x4000 4 4 .i8 .rw 0xE0,
    one 0x4010 1 c .u64 .ro, one 0x4011 1 c .u64 .ro, one 0x4012 1 c .u32 .ro,
    ⟨0x4100, c, 1, 1, .u16, .rw, 2, 0⟩, ⟨0x4100, c, 2, 129, .u16, .rw, 2, 0⟩,
    one 0x5000 6 7 .u8 .rw 255, one 0x5000 8 8 .u8 .rw 224, one 0x5000 9 9 .u8 .rw 192, one 0x5000 0x13 0x13 .u8 .rw 160,
    one 0x5000 0x14 0x14 .u8 .rw 255, one 0x5010 1 5 .u64 .ro, one 0x5011 1 c .u64 .ro, one 0x5012 1 c .u64 .ro,
    one 0x5013 1 c .u32 .ro,
    one 0x5100 1 1 .u8 .rw 2, one 0x5100 2 2 .u8 .rw 64, one 0x5100 3 3 .bool .rw 1, one 0x5180 1 5 .u64 .ro,
    one 0x5180 6 6 .u32 .ro, one 0x5180 7 7 .u64 .ro, one 0x5180 8 9 .u32 .ro, one 0x5180 10 10 .u64 .ro, one 0x5181 1 c .u32 .ro ]

/-- Tables 11.12, 11.13, 17.7, 15.12, 16.9, 19.7, 2.6, 3.7, 8.9, 5.6, 12.7. -/
def famsC (hw : Hw) : List Fam :=
  let c := nClusters hw
  let p := nPorts hw
  [ ⟨0x6000, p, 1, 1, .u8, .ro, 1, 0⟩, ⟨0x6000, p, 2, 2, .u16, .ro, 2, 0xFFFF⟩, ⟨0x6000, p, 3, 3, .u16, .ro, 2, 0⟩,
    ⟨0x6000, p, 4, 4, .u64, .rw, 8, 0x1001F03FE⟩, ⟨0x6000, p, 5, 5, .u64, .ro, 8, 0⟩, ⟨0x6000, p, 6, 6, .u8, .rw, 1, 0⟩,
    ⟨0x6000, p, 7, 7, .u16, .rw, 2, 0x88B5⟩, ⟨0x6000, p, 8, 9, .blob, .rw, 6, 0⟩, ⟨0x6000, p, 10, 10, .u16, .rw, 2, 0⟩,
    ⟨0x6000, p, 11, 12, .u64, .ro, 8, 0⟩, ⟨0x6000, p, 13, 18, .u32, .ro, 4, 0⟩, ⟨0x6000, p, 19, 19, .u64, .ro, 8, 0⟩,
    ⟨0x6000, p, 20, 24, .u32, .ro, 4, 0⟩,
    one 0x6100 1 1 .u16 .rwt, one 0x6100 2 2 .u16 .ro, one 0x6100 3 3 .u16 .rw, one 0x6100 4 4 .u8 .ro, one 0x6100 5 5 .u16 .rwt 1000,
    one 0x7000 1 1 .u32 .ro, one 0x7000 2 3 .u64 .ro, one 0x7000 4 8 .u32 .ro, blob 0x7010 1 3 32 .ro,
    ⟨0x7020, 22, 1, 128, .u32, .ro, 4, 0⟩, one 0x7100 1 1 .u32 .wo, one 0x7100 2 2 .u16 .rwp, one 0x7200 1 1 .u8 .wo,
    one 0x7200 2 2 .u16 .wo, one 0x7200 3 3 .u8 .wo, one 0x7200 4 4 .u16 .rwt 0x1FFF, one 0x7200 5 5 .u16 .rwt 0x2F2,
    one 0x7300 1 1 .u16 .rwp,
    one 0x8000 1 1 .u8 .ro, blob 0x8000 2 2 0 .wo, one 0x8000 3 4 .u8 .rwt, one 0x8000 5 5 .u8 .ro, one 0x8001 1 8 .u32 .ro,
    blob 0x8002 1 8 48 .ro, one 0x8010 1 1 .u64 .ro, one 0x8010 2 2 .u8 .rwt 100, one 0x8010 3 3 .u32 .ro, one 0x8010 4 4 .u16 .wo,
    one 0x8010 5 5 .u16 .ro, one 0x8020 1 1 .u32 .ro, one 0x8020 2 2 .u64 .ro, blob 0x8021 1 32 16 .ro,
    one 0x9000 1 1 .u32 .ro, one 0x9000 2 2 .u32 .rw, blob 0x9000 3 3 48 .ro, one 0x9000 4 4 .u32 .rwp, one 0x9000 5 5 .u8 .rwp,
    one 0x9000 6 7 .u32 .ro, one 0x9000 8 8 .u16 .ro,
    one 0xA000 1 5 .u64 .ro, one 0xA010 1 5 .u64 .ro, one 0xA020 1 6 .u64 .ro, one 0xA021 1 c .u32 .ro,
    one 0xA030 1 c .u64 .ro, one 0xA031 1 c .u64 .ro, one 0xA032 1 c .u32 .ro, one 0xA033 1 c .u32 .ro, one 0xA034 1 c .u32 .ro,
    one 0xA035 1 c .u64 .ro, one 0xA036 1 c .u32 .ro, one 0xA037 1 c .u32 .ro, one 0xA038 1 c .u32 .ro,
    one 0xA100 1 1 .u16 .rw 4096, one 0xA100 2 2 .u64 .ro, one 0xA110 1 64 .u64 .ro, one 0xA111 1 64 .u32 .ro,
    one 0xA112 1 64 .u32 .ro,
    one 0xB000 1 1 .u8 .ro 5, one 0xB000 2 2 .u8 .rwp, one 0xB000 3 3 .u16 .rwt 2000, one 0xB000 4 4 .u8 .rwt 3,
    one 0xB000 5 5 .u16 .ro, one 0xB000 6 6 .u8 .ro, one 0xB000 7 7 .u64 .ro, one 0xB001 1 1 .u64 .ro, one 0xB001 2 7 .u32 .ro,
    blob 0xC000 1 1 0 .wo, one 0xC000 2 2 .u8 .rwp, one 0xC000 3 3 .u8 .wo, one 0xC000 4 4 .u16 .ro, one 0xC000 5 6 .u32 .ro,
    one 0xC000 7 8 .u8 .ro, one 0xC000 9 9 .u16 .rwt 1000, one 0xC000 10 10 .bool .ro 1 ]

/-- Table 19.1 as data. -/
def fams (hw : Hw) : List Fam := famsA hw ++ famsB hw ++ famsC hw

/-- A family holds the key. -/
def Fam.has (f : Fam) (k : Nat) : Bool :=
  f.idx ≤ k / 256 && k / 256 < f.idx + f.n && f.lo ≤ k % 256 && k % 256 ≤ f.hi

/-- The source whose SRC_STATE a key is (R372): index 0x7020 + 2·s[11:8] + s[7], subindex s[6:0] + 1. -/
def srcOfKey (k : Nat) : Nat := (k / 256 - 0x7020) * 128 + (k % 256 - 1)

/-- R9, R421: the unit a unit-indexed object belongs to is present. -/
def unitPresent (hw : Hw) (k : Nat) : Bool :=
  let i := k / 256
  let u := k % 256 - 1
  if 0x2020 ≤ i && i ≤ 0x2022 then islandExists hw u
  else if 0x2411 ≤ i && i ≤ 0x2413 then seqExists hw u
  else if 0x2040 ≤ i && i ≤ 0x204A then queueExists hw (i % 4 * 128 + u)
  else if 0x7020 ≤ i && i ≤ 0x7035 then srcExists hw (srcOfKey k)
  else true

/-- The family of an object that exists (R420, R421). -/
def findFam (hw : Hw) (k : Nat) : Option Fam :=
  if unitPresent hw k then (fams hw).find? (fun f => f.has k) else none

/-- R420: the object exists. -/
def objExists (hw : Hw) (k : Nat) : Bool := (findFam hw k).isSome

/-- The Default column (R423). -/
def objDefault (hw : Hw) (k : Nat) : Nat := match findFam hw k with | some f => f.dflt | none => 0

/-- The largest value of the object's type: where its counters saturate. -/
def objMax (hw : Hw) (k : Nat) : Nat := match findFam hw k with | some f => 2 ^ (8 * f.len) - 1 | none => 0

end Sys2Proof.Machine
end

