-- ==== Sys2Proof/Machine/Ops.lean ====
section
/-! DEFINITION. The named operations over the State: sparse tables, dictionary objects and counters, outputs, fault
reports, notifications, units, and the outstanding operations of a slot (R231). -/

namespace Sys2Proof.Machine

/-! ## Sparse tables in canonical form -/

/-- Read a key: an unlisted key reads as `d`. -/
def tget {α : Type} (d : α) : Tab α → Nat → α
  | [], _ => d
  | (k', v) :: r, k => if k = k' then v else tget d r k

/-- Drop a key: no entry of it stays. -/
def tdel {α : Type} : Tab α → Nat → Tab α
  | [], _ => []
  | (k', v) :: r, k => if k = k' then tdel r k else (k', v) :: tdel r k

/-- List a value under a key, keys rising. -/
def tins {α : Type} : Tab α → Nat → α → Tab α
  | [], k, v => [(k, v)]
  | (k', v') :: r, k, v => if k < k' then (k, v) :: (k', v') :: r else if k = k' then (k, v) :: r else (k', v') :: tins r k v

/-- Write a key: a value equal to what an unlisted key reads as is not listed. -/
def tset {α : Type} [DecidableEq α] (d : α) (t : Tab α) (k : Nat) (v : α) : Tab α :=
  if v = d then tdel t k else tins t k v

/-- Change the value under a key. -/
def tmod {α : Type} [DecidableEq α] (d : α) (t : Tab α) (k : Nat) (f : α → α) : Tab α := tset d t k (f (tget d t k))

/-- Change every listed value; one that becomes the default is no longer listed. -/
def tmap {α : Type} [DecidableEq α] (d : α) (f : α → α) : Tab α → Tab α
  | [] => []
  | (k, v) :: r => if f v = d then tmap d f r else (k, f v) :: tmap d f r

/-- Keys strictly rise from above `lo` on. -/
def risingFrom {α : Type} : Option Nat → Tab α → Bool
  | _, [] => true
  | lo, (k, _) :: r => (match lo with | none => true | some b => b < k) && risingFrom (some k) r

/-- The canonical form: keys strictly rising and no entry equal to the default. -/
def Tab.wf {α : Type} [DecidableEq α] (d : α) (t : Tab α) : Bool := risingFrom none t && t.all (fun e => e.2 != d)

/-! ## Dictionary objects held in the map -/

/-- The stored value of an object. -/
def obj (s : State) (k : Nat) : Nat := tget (objDefault s.hw k) s.objs k

/-- Store an object's value. -/
def setObj (k v : Nat) (s : State) : State := { s with objs := tset (objDefault s.hw k) s.objs k v }

/-- Advance a counter, saturating at the largest value of its type (R58, R85, R112 and the other objects rules). -/
def bump (k n : Nat) (s : State) : State := setObj k (min (obj s k + n) (objMax s.hw k)) s

/-- Advance a counter when a condition holds. -/
def bumpIf (b : Bool) (k n : Nat) (s : State) : State := if b then bump k n s else s

/-! ## Units -/

def getSeq (s : State) (q : Nat) : Seq := tget .idle s.seqs q
def setSeq (q : Nat) (v : Seq) (s : State) : State := { s with seqs := tset .idle s.seqs q v }
def modSeq (q : Nat) (f : Seq → Seq) (s : State) : State := setSeq q (f (getSeq s q)) s

def getCl (s : State) (c : Nat) : Cluster := tget .idle s.clusters c
def setCl (c : Nat) (v : Cluster) (s : State) : State := { s with clusters := tset .idle s.clusters c v }
def modCl (c : Nat) (f : Cluster → Cluster) (s : State) : State := setCl c (f (getCl s c)) s

def getPort (s : State) (p : Nat) : Port := tget .down s.ports p
def setPort (p : Nat) (v : Port) (s : State) : State := { s with ports := tset .down s.ports p v }
def modPort (p : Nat) (f : Port → Port) (s : State) : State := setPort p (f (getPort s p)) s

def getQueue (s : State) (q : Nat) : QueueSt := tget .empty s.queues q
def setQueue (q : Nat) (v : QueueSt) (s : State) : State := { s with queues := tset .empty s.queues q v }

def stackDefault : Stack := { warnLow := false, critLow := false, state := 0, level := 0, sampled := 0, cooled := none }
def getStack (s : State) (k : Nat) : Stack := tget stackDefault s.stackTab k
def setStack (k : Nat) (v : Stack) (s : State) : State := { s with stackTab := tset stackDefault s.stackTab k v }

def islandDefault : Island := { drooping := false, stretched := false, breached := false }
def getIsland (s : State) (i : Nat) : Island := tget islandDefault s.islands i
def setIsland (i : Nat) (v : Island) (s : State) : State := { s with islands := tset islandDefault s.islands i v }

def getSrc (s : State) (k : Nat) : SrcState := tget .clear s.faults.src k
def setSrc (k : Nat) (v : SrcState) (s : State) : State :=
  { s with faults := { s.faults with src := tset .clear s.faults.src k v } }

def flagsDefault : StreamFlags := { poison := false, sat := false, hazard := false, yielded := false }
/-- R246, R259: what the stream's next completion record reports. -/
def flagStream (st : Nat) (f : StreamFlags → StreamFlags) (s : State) : State :=
  { s with plan := { s.plan with streams := tmod flagsDefault s.plan.streams st f } }
def flagPoison (st : Nat) (s : State) : State := flagStream st (fun f => { f with poison := true }) s
def flagSat (st : Nat) (s : State) : State := flagStream st (fun f => { f with sat := true }) s
def flagHazard (st : Nat) (s : State) : State := flagStream st (fun f => { f with hazard := true }) s

/-- A driven output. -/
def emit (o : Out) (s : State) : State := { s with out := o :: s.out }

/-- Own Renavasin node (R409). -/
def ownNode (s : State) : BitVec 7 := s.boot.nodeId

/-- Own instance identifier (R397). -/
def instanceId (s : State) : Nat := obj s (key 0x1008 1)

/-- Own epoch (R286). -/
def epochOf (s : State) : Nat := obj s (key 0x6100 1)

/-! ## Slot context of a sequencer (R238, R239) -/

/-- The logical cluster a physical cluster runs (R243). -/
def logicalOf (s : State) (c : Nat) : Option Nat :=
  if s.plan.map.contains c then some (s.plan.map.findIdx (· == c)) else none

/-- R243: the sequencer number of the plan that runs on physical sequencer q. -/
def planSeq (s : State) (q : Nat) : Option Nat := if q < 32 then logicalOf s q else some q

/-- The active bank of a sequencer. -/
def seqImage (s : State) (q : Nat) : Option SeqImage :=
  match s.plan.active, planSeq s q with
  | some im, some l => im.seqs[l]?
  | _, _ => none

/-- The slot entry in progress (Table 9.9). -/
def slotBits (s : State) (q : Nat) : Nat :=
  match seqImage s q with
  | some si => (nth 0 si.slots (getSeq s q).slot).toNat
  | none => 0

def slotStream (v : Nat) : Nat := fld v 58 10
def slotTenant (v : Nat) : Nat := fld v 50 8
def slotClass (v : Nat) : Nat := fld v 68 2
def slotKind (v : Nat) : Nat := fld v 70 2
def slotEntry (v : Nat) : Nat := fld v 37 13
def slotCpl (v : Nat) : Bool := bitAt v 36
def slotStart (v : Nat) : Nat := fld v 100 28
def slotLength (v : Nat) : Nat := fld v 72 28

/-- The stream and tenant of the slot in progress; zero when none (R354). -/
def curStream (s : State) (q : Nat) : Nat := if (getSeq s q).running then slotStream (slotBits s q) else 0
def curTenant (s : State) (q : Nat) : Nat := if (getSeq s q).running then slotTenant (slotBits s q) else 0

/-- OP of a report (R354) on work that the walk instruction of opcode `op` gave a unit of sequencer q: 0xFF outside a slot. -/
def workOp (s : State) (q op : Nat) : Nat := if (getSeq s q).running then op else 0xFF

/-- R240: the slot in progress is a test entry: its expansions go to the null sink. -/
def inTestEntry (s : State) (q : Nat) : Bool := (getSeq s q).running && slotKind (slotBits s q) == 1

/-! ## Reports (R354, R356) -/

/-- The sensors of the detecting island are read (R354): free values. -/
def readSensors (d : Detection) (s : State) : Detection :=
  { d with temp := Config.sensorTemp s.freeIdx, volt := Config.sensorVolt s.freeIdx }

/-- R354: a detecting unit forms its report and sends it to the collector. -/
def raise (d : Detection) (s : State) : State :=
  { s with
    faults := { s.faults with
      reports := s.faults.reports ++ [{ d := readSensors d s, forced := false, test := false, rowTest := none, time := s.clock.time, frame := s.plan.frame }] }
    freeIdx := s.freeIdx + 1 }

/-- A report of a source with no address, outside or inside a slot. -/
def raiseSimple (src : Nat) (cls : FaultClass) (access : Nat) (s : State) : State :=
  raise { source := BitVec.ofNat 12 src, cls := cls, access := BitVec.ofNat 4 access } s

/-- A report of a unit whose walk instruction `op` runs in the slot of sequencer q. -/
def raiseIn (q op src : Nat) (cls : FaultClass) (access akind addr syn detail : Nat) (s : State) : State :=
  raise { source := BitVec.ofNat 12 src, cls := cls, access := BitVec.ofNat 4 access, akind := BitVec.ofNat 2 akind,
          addr := BitVec.ofNat 48 addr, syndrome := BitVec.ofNat 16 syn, detail := BitVec.ofNat 24 detail,
          op := BitVec.ofNat 8 op, stream := BitVec.ofNat 10 (curStream s q), tenant := BitVec.ofNat 8 (curTenant s q) } s

/-- R324, R325: a plan overrun of a unit: one report per unit and frame, further ones only counted. `op` is the walk instruction in
progress, 0xFF for none (R354). -/
def raiseOverrun (q src op : Nat) (s : State) : State :=
  if s.faults.overran.contains src then bump (key 0x2023 1) 1 s
  else
    raise { source := BitVec.ofNat 12 src, cls := .contained, access := 8, op := BitVec.ofNat 8 op,
            stream := BitVec.ofNat 10 (curStream s q), tenant := BitVec.ofNat 8 (curTenant s q) }
      { s with faults := { s.faults with overran := src :: s.faults.overran } }

/-- The source identifier of a stream sequencer (Table 15.1). -/
def seqSource (q : Nat) : Nat := if q < 32 then 0x400 + 8 * q + 5 else if q < 48 then 0x600 + 4 * (q - 32) + 3 else 0x900

/-! ## Notifications (R413, R414) -/

/-- R410: an identifier of service `sv`, destination, source and tag. -/
def canId (sv : Nat) (dst src : BitVec 7) (tag : Nat) : BitVec 29 :=
  BitVec.ofNat 29 (sv * 2 ^ 25 + dst.toNat * 2 ^ 18 + src.toNat * 2 ^ 11 + tag % 2048)

/-- R410: the valid CAN FD payload lengths; a payload is padded with zeros to the next of them. -/
def canLen (n : Nat) : Nat :=
  if n ≤ 8 then n else if n ≤ 12 then 12 else if n ≤ 16 then 16 else if n ≤ 20 then 20 else if n ≤ 24 then 24
  else if n ≤ 32 then 32 else if n ≤ 48 then 48 else 64

def padPayload (l : List Byte) : List Byte := l ++ List.replicate (canLen l.length - l.length) 0

def bytesOf (n v : Nat) : List Byte := (toBytes n v).map (BitVec.ofNat 8)

/-- R414: the NOTIFY payload. -/
def notifyPayload (code count idx sub time : Nat) : List Byte :=
  bytesOf 1 code ++ bytesOf 1 (min count 255) ++ bytesOf 2 idx ++ bytesOf 1 sub ++ bytesOf 3 0 ++ bytesOf 8 time

/-- R409, R419: frames switch the bit rate unless the data-phase rate in force is 0. -/
def rateSwitch (s : State) : Bool := s.dict.canData != 0

/-- R413: one NOTIFY leaves; NOTE_SEQ advances, up to its largest value (R419), and its window opens. -/
def sendNotify (code : Nat) (w : NoteWindow) (s : State) : State :=
  let sq := obj s (key 0x2050 6)
  let id := canId 1 (BitVec.ofNat 7 (obj s (key 0x2050 3))) (ownNode s) sq
  emit (.can id (notifyPayload code w.count w.index w.sub w.time) (rateSwitch s))
    (setObj (key 0x2050 6) (min (sq + 1) 65535)
      { s with dict := { s.dict with
        notes := tset .idle s.dict.notes code { w with running := true, held := false, count := 0 } } })

/-- R413: an event of a code: its NOTE_PEND bit is set, and it is counted (R414). A NOTIFY leaves when NOTE_MASK selects the code and no
NOTIFY of the code left in the running 1 ms window. -/
def notify (code idx sub : Nat) (s : State) : State :=
  let s := setObj (key 0x2050 5) (obj s (key 0x2050 5) ||| 2 ^ code) s
  let w := tget .idle s.dict.notes code
  let on := bitAt (obj s (key 0x2050 4)) code
  let w' := { w with held := w.held || on, count := w.count + 1, index := idx, sub := sub, time := s.clock.time }
  if !on || w.running || s.dict.busOff then { s with dict := { s.dict with notes := tset .idle s.dict.notes code w' } }
  else sendNotify code w' s

/-! ## Operations of a slot that complete later (R231) -/

/-- R231: every earlier operation of the SIG's slot has completed. -/
def sigReady (sq : Seq) (g : Nat × Nat × Nat) : Bool := !sq.ops.any (fun o => g.2.1 ≤ o.1 && o.1 < g.2.2)

/-- Pending SIGs whose earlier operations have all completed increment their doorbells (saturating, R231). -/
def settleSigs (q : Nat) (s : State) : State :=
  let sq := getSeq s q
  let go := sq.sigs.filter (sigReady sq)
  if go.isEmpty then s
  else
    let s := setSeq q { sq with sigs := sq.sigs.filter (fun g => !sigReady sq g) } s
    { s with plan := { s.plan with
        bells := go.foldl (fun b g => tset 0 b g.1 (min (tget 0 b g.1 + 1) 65535)) s.plan.bells } }

/-- Open an operation of `n` parts; its reference is the sequencer's next number. -/
def opOpen (q n : Nat) (s : State) : State :=
  modSeq q (fun sq => { sq with ops := if n = 0 then sq.ops else sq.ops ++ [(sq.nextOp, n)], nextOp := sq.nextOp + 1 }) s

/-- The reference `opOpen` gives. -/
def opNext (q : Nat) (s : State) : OpRef := { q := q, op := (getSeq s q).nextOp }

/-- Add parts to an open operation. -/
def opMore (r : OpRef) (n : Nat) (s : State) : State :=
  modSeq r.q (fun sq => { sq with ops := sq.ops.map (fun o => if o.1 = r.op then (o.1, o.2 + n) else o) }) s

/-- `n` parts of an operation have completed. -/
def opDone (r : OpRef) (n : Nat) (s : State) : State :=
  settleSigs r.q (modSeq r.q (fun sq =>
    { sq with ops := (sq.ops.map (fun o => if o.1 = r.op then (o.1, o.2 - n) else o)).filter (fun o => o.2 != 0) }) s)

/-! ## Format-anomaly and check-code counters (R58, R85) -/

/-- R85, Table 3.7: advance an anomaly counter (subindex 2 to 6) `n` times, with FA_TOTAL and, in a lane of cluster c, FA_CLUSTER. -/
def anomaly (cl : Option Nat) (sub n : Nat) (s : State) : State :=
  if n = 0 then s
  else
    let s := bump (key 0xA020 sub) n (bump (key 0xA020 1) n s)
    match cl with
    | some c => bump (key 0xA021 (c + 1)) n s
    | none => s

/-- Counters of the anomalies one expansion met. -/
structure Anoms where
  header : Nat := 0
  code : Nat := 0
  overcap : Nat := 0
  intMin : Nat := 0
  stray : Nat := 0
  deriving DecidableEq, Repr

def Anoms.add (a b : Anoms) : Anoms :=
  { header := a.header + b.header, code := a.code + b.code, overcap := a.overcap + b.overcap, intMin := a.intMin + b.intMin,
    stray := a.stray + b.stray }

/-- Count the anomalies of one expansion. -/
def countAnoms (cl : Option Nat) (a : Anoms) (s : State) : State :=
  anomaly cl 6 a.stray (anomaly cl 5 a.intMin (anomaly cl 4 a.overcap (anomaly cl 3 a.code (anomaly cl 2 a.header s))))

/-- Apply a state change for each element, in order. -/
def forEach {α : Type} (l : List α) (f : α → State → State) (s : State) : State := l.foldl (fun s a => f a s) s

/-! ## Stops -/

/-- R9, R421: a command has its effect where the configuration has the units it names. -/
def guarded (present : Bool) (s : State) (f : State → State) : Host.Outcome State Fault Refusal :=
  if present then .next (f s) else .fault .unitAbsent

/-- An event that can only occur in a state where `b` holds changes nothing elsewhere (log 4). -/
def whenS (b : Bool) (s : State) (f : State → State) : State := if b then f s else s

end Sys2Proof.Machine
end

