-- ==== Sys2Proof/Machine/Container.lean ====
section
/-! DEFINITION. The Xoboith container (02): header fields, the Reed-Solomon check code, decoding, marking, header checks. -/

namespace Sys2Proof.Machine

/-! ## Bytes and header (R38 to R43, Tables 2.1 and 2.2) -/

/-- The 256 bytes of a container. -/
def blockBytes (b : Block) : List Nat := toBytes 256 b.toNat

/-- A container of the given bytes. -/
def blockOf (l : List Nat) : Block := BitVec.ofNat 2048 (ofBytes l)

/-- Payload byte k lies at offset 16 + k. -/
def payloadOf (b : Block) : List Nat := ((blockBytes b).drop 16).take 224

def hFormat (b : Block) : Nat := fld b.toNat 0 6
def hPoison (b : Block) : Bool := bitAt b.toNat 6
def hProvisional (b : Block) : Bool := bitAt b.toNat 7
def hEpoch (b : Block) : Nat := fld b.toNat 8 12
def hTenant (b : Block) : Nat := fld b.toNat 20 8
def hExp (b : Block) : Int := sint 8 (fld b.toNat 28 8)
def hCount (b : Block) : Nat := fld b.toNat 36 12
def hDensity (b : Block) : Nat := fld b.toNat 48 8
def hZeroChan (b : Block) : Bool := bitAt b.toNat 56
def hRotated (b : Block) : Bool := bitAt b.toNat 57
def hRowTail (b : Block) : Bool := bitAt b.toNat 58
def hStochastic (b : Block) : Bool := bitAt b.toNat 59
def hTransposable (b : Block) : Bool := bitAt b.toNat 60
def hPredicted (b : Block) : Bool := bitAt b.toNat 61
def hProdInst (b : Block) : Nat := fld b.toNat 64 12
def hProdUnit (b : Block) : Nat := fld b.toNat 76 12
def hTensorSeq (b : Block) : Nat := fld b.toNat 88 32
def hScaleMant (b : Block) : Nat := fld b.toNat 120 8

/-- The header fields a maker of check bytes writes (R42). -/
structure Header where
  format : Nat
  poison : Bool
  epoch : Nat
  tenant : Nat
  exp : Int
  count : Nat
  density : Nat
  zeroChan : Bool
  rotated : Bool
  rowTail : Bool
  stochastic : Bool
  transposable : Bool
  predicted : Bool
  prodInst : Nat
  prodUnit : Nat
  tensorSeq : Nat
  scaleMant : Nat
  deriving DecidableEq, Repr

/-- Table 2.2: the 128 header bits; PROVISIONAL and the reserved bits zero. -/
def headerBits (h : Header) : Nat :=
  put h.format 0 6 + put (b2n h.poison) 6 1 + put h.epoch 8 12 + put h.tenant 20 8 + put (twos 8 h.exp) 28 8
  + put h.count 36 12 + put h.density 48 8 + put (b2n h.zeroChan) 56 1 + put (b2n h.rotated) 57 1 + put (b2n h.rowTail) 58 1
  + put (b2n h.stochastic) 59 1 + put (b2n h.transposable) 60 1 + put (b2n h.predicted) 61 1 + put h.prodInst 64 12
  + put h.prodUnit 76 12 + put h.tensorSeq 88 32 + put h.scaleMant 120 8

/-! ## GF(2^8) (R44) -/

/-- One shift of the field: multiplication by α. -/
def gfDouble (a : Nat) : Nat := if a < 128 then 2 * a else Nat.xor (2 * a - 256) 0x1D

/-- Product of a by the low `n` bits of b. -/
def gfMulN : Nat → Nat → Nat → Nat
  | 0, _, _ => 0
  | n + 1, a, b => Nat.xor (if b % 2 == 1 then a else 0) (gfMulN n (gfDouble a) (b / 2))

/-- The product of GF(2^8) with 0x11D. -/
def gfMul (a b : Nat) : Nat := gfMulN 8 a b

/-- a^(2^(n+1) - 2) by squaring. -/
def gfInvN : Nat → Nat → Nat → Nat
  | 0, _, acc => acc
  | n + 1, x, acc => let y := gfMul x x; gfInvN n y (gfMul acc y)

/-- The inverse of a non-zero element: a^254. -/
def gfInv (a : Nat) : Nat := gfInvN 7 a 1

/-- α^k. -/
def gfAlpha : Nat → Nat
  | 0 => 1
  | k + 1 => gfDouble (gfAlpha k)

/-- The pairs (k, α^k) for the next `n` positions from k. -/
def gfPowers : Nat → Nat → Nat → List (Nat × Nat)
  | 0, _, _ => []
  | n + 1, k, a => (k, a) :: gfPowers n (k + 1) (gfDouble a)

/-! ## Encoding (R45, R46) -/

/-- g(x), coefficients of x^7 down to x^0 (Table 2.3). -/
def genPoly : List Nat := [0xFF, 0x0B, 0x51, 0x36, 0xEF, 0xAD, 0xC8, 0x18]

/-- One step of the encoder's register. -/
def encStep (r : List Nat) (s : Nat) : List Nat :=
  let f := Nat.xor s (nth 0 r 0)
  List.zipWith (fun a g => Nat.xor a (gfMul f g)) (r.drop 1 ++ [0]) genPoly

/-- The eight check symbols of 120 data symbols. -/
def checkSymbols (d : List Nat) : List Nat := d.foldl encStep (List.replicate 8 0)

/-- Symbols of codeword A (w = 0) or B (w = 1), with PROVISIONAL taken as 0 (R46). -/
def symbolsOf (l : List Nat) (w : Nat) : List Nat :=
  (List.range 128).map (fun j => let v := nth 0 l (2 * j + w); if j == 0 && w == 0 then v % 128 else v)

/-- Interleave two lists byte by byte. -/
def interleave : List Nat → List Nat → List Nat
  | a :: as, b :: bs => a :: b :: interleave as bs
  | _, _ => []

/-- R45: the container with all 16 check bytes computed from its 240 data bytes. -/
def encodeCheck (b : Block) : Block :=
  let l := blockBytes b
  let a := checkSymbols ((symbolsOf l 0).take 120)
  let c := checkSymbols ((symbolsOf l 1).take 120)
  blockOf (l.take 240 ++ interleave a c)

/-! ## Decoding (R47 to R51) -/

/-- The outcome of one codeword: symbols after correction and how many were corrected, or uncorrectable. -/
inductive CwOut where
  | ok (syms : List Nat) (fixed : Nat)
  | bad
  deriving DecidableEq, Repr

/-- S_i = r(α^i). -/
def syndrome (r : List Nat) (i : Nat) : Nat := let x := gfAlpha i; r.foldl (fun a s => Nat.xor (gfMul a x) s) 0

/-- The syndromes S_i for i from 0 to 7 of an error pattern: (position, value) pairs, position k standing at x^k. -/
def patternSyndrome (e : List (Nat × Nat)) (i : Nat) : Nat :=
  e.foldl (fun a p => Nat.xor a (gfMul p.2 (gfAlpha (p.1 * i % 255)))) 0

/-- Subtract an error pattern; position x^k is symbol 127 - k. -/
def fixSymbols (r : List Nat) (e : List (Nat × Nat)) : List Nat :=
  e.foldl (fun l p => l.modify (127 - p.1) (fun v => Nat.xor v p.2)) r

/-- The candidate pattern of one or two errors at x^0 to x^127 that the first four syndromes name. -/
def candidate (s0 s1 s2 s3 : Nat) : List (Nat × Nat) :=
  let alphas := gfPowers 128 0 1
  match alphas.find? (fun p => s0 != 0 && gfMul s0 p.2 == s1 && gfMul s1 p.2 == s2 && gfMul s2 p.2 == s3) with
  | some p => [(p.1, s0)]
  | none =>
    let det := Nat.xor (gfMul s1 s1) (gfMul s0 s2)
    if det == 0 then []
    else
      let di := gfInv det
      let l1 := gfMul di (Nat.xor (gfMul s1 s2) (gfMul s0 s3))
      let l2 := gfMul di (Nat.xor (gfMul s2 s2) (gfMul s1 s3))
      match alphas.filter (fun p => Nat.xor (Nat.xor (gfMul p.2 p.2) (gfMul l1 p.2)) l2 == 0) with
      | [p, q] =>
        let e := gfMul (gfInv (Nat.xor p.2 q.2)) (Nat.xor s1 (gfMul s0 q.2))
        [(p.1, e), (q.1, Nat.xor s0 e)]
      | _ => []

/-- The pattern is one the decoder may subtract: non-zero values, exactly these syndromes, and, in codeword A, bit 7 of the
error at s_0 clear (R47). -/
def patternOk (isA : Bool) (e : List (Nat × Nat)) (syn : List Nat) : Bool :=
  !e.isEmpty && e.all (fun p => p.2 != 0) && (List.range 8).map (patternSyndrome e) == syn
  && !(isA && e.any (fun p => p.1 == 127 && p.2 / 128 == 1))

/-- R47: decode one codeword. -/
def decodeWord (isA : Bool) (r : List Nat) : CwOut :=
  let syn := (List.range 8).map (syndrome r)
  if syn.all (· == 0) then .ok r 0
  else
    let e := candidate (nth 0 syn 0) (nth 0 syn 1) (nth 0 syn 2) (nth 0 syn 3)
    if patternOk isA e syn then .ok (fixSymbols r e) e.length else .bad

/-- The four-bit count of Table 15.5's DETAIL for one codeword: corrected symbols, 0xF when uncorrectable. -/
def CwOut.code : CwOut → Nat
  | .ok _ n => n
  | .bad => 15

/-- The symbols a codeword had corrected. -/
def CwOut.symbols : CwOut → Nat
  | .ok _ n => n
  | .bad => 0

/-- R374: the recheck of the codeword that a decoder passes on: one that was corrected must be error-free; an uncorrectable one is
poison-marked by R52. -/
def CwOut.recheckFails : CwOut → Bool
  | .ok syms n => n != 0 && (List.range 8).any (fun i => syndrome syms i != 0)
  | .bad => false

/-- What a decoder passes on (Table 2.4): the container, the symbols corrected in both codewords (R52 step 1 corrects one codeword
of a container whose other is uncorrectable), whether it is uncorrectable, whether its recheck fails (R374), and DETAIL. -/
structure Decoded where
  block : Block
  fixed : Nat
  bad : Bool
  recheck : Bool
  detail : Nat
  deriving DecidableEq, Repr

/-- R52 steps 2 and 3. -/
def markPoison (b : Block) : Block :=
  encodeCheck (if hPoison b then b else BitVec.ofNat 2048 (b.toNat + 64))

/-- Put the decoded symbols back; header bit [7] stays as received (R47). -/
def reassemble (b : Block) (a c : CwOut) : Block :=
  let l := blockBytes b
  let sa := match a with | .ok s _ => s | .bad => symbolsOf l 0
  let sc := match c with | .ok s _ => s | .bad => symbolsOf l 1
  let r := interleave sa sc
  BitVec.ofNat 2048 (ofBytes r + b2n (hProvisional b) * 128)

/-- R51, R52: decode a container; an uncorrectable one is passed on poison-marked. -/
def decodeBlock (b : Block) : Decoded :=
  let l := blockBytes b
  let a := decodeWord true (symbolsOf l 0)
  let c := decodeWord false (symbolsOf l 1)
  let r := reassemble b a c
  let det := a.code * 16 + c.code
  let n := a.symbols + c.symbols
  match a, c with
  | .ok _ _, .ok _ _ => { block := r, fixed := n, bad := false, recheck := a.recheckFails || c.recheckFails, detail := det }
  | _, _ => { block := markPoison r, fixed := n, bad := true, recheck := false, detail := det }

/-! ## Formats' sizes (R61, Table 3.1) -/

/-- One row of Table 3.1: group size G, bytes per group B, groups, capacity, the format maximum N. -/
structure Fmt where
  code : Nat
  group : Nat
  bytes : Nat
  groups : Nat
  cap : Nat
  nmax : Nat
  deriving DecidableEq, Repr

/-- Table 3.1. -/
def fmtTable : List Fmt :=
  [ ⟨0x01, 64, 14, 16, 1024, 1024⟩, ⟨0x02, 32, 8, 28, 896, 896⟩, ⟨0x03, 128, 27, 8, 1024, 1024⟩, ⟨0x04, 64, 13, 17, 1088, 544⟩,
    ⟨0x05, 64, 13, 17, 1088, 544⟩, ⟨0x06, 64, 10, 22, 1408, 176⟩, ⟨0x07, 64, 11, 20, 1280, 320⟩, ⟨0x08, 64, 12, 18, 1152, 432⟩,
    ⟨0x09, 64, 13, 17, 1088, 544⟩, ⟨0x10, 32, 32, 7, 224, 224⟩, ⟨0x11, 64, 32, 7, 448, 448⟩, ⟨0x12, 32, 19, 11, 352, 176⟩,
    ⟨0x13, 64, 28, 8, 512, 128⟩, ⟨0x14, 64, 14, 16, 1024, 128⟩, ⟨0x20, 56, 224, 1, 56, 56⟩ ]

/-- The format of a code, none where Table 3.1 does not list it. -/
def fmtOf (c : Nat) : Option Fmt := fmtTable.find? (fun f => f.code == c)

def Fmt.isWeight (f : Fmt) : Bool := f.code < 0x10
def Fmt.isAct (f : Fmt) : Bool := 0x10 ≤ f.code && f.code < 0x20

/-! ## The checks at a decode point (R53 to R59, R64, R447) -/

/-- What a decode point asks of a container. `tenant` is the consuming stream's tenant where the comparison is required. -/
structure Ask where
  slotTag : Bool := false
  expect : Option Nat := none
  tenant : Option Nat := none
  atRest : Bool := false
  deriving DecidableEq, Repr

/-- What the checks found: the container passed on, whether it is treated as poisoned, the VALID_COUNT taken, and what to
count and report. -/
structure Seen where
  block : Block
  poisoned : Bool
  count : Nat
  fixed : Nat
  bad : Bool
  detail : Nat
  poisonSeen : Bool
  headerAnomaly : Bool
  tenantFault : Bool
  recheck : Bool
  slotTag : Bool
  deriving DecidableEq, Repr

/-- R55 to R59, R64, R447: decode and check a container. Each decode point counts FA_HEADER for the format and header anomalies it
meets, also for a container that an earlier one marked POISON under R447; only a chorus engine's input, one container decoded in
two stages, counts once (R85, log 133). A slot whose poison tag is set is not decoded, so no header check of Table 2.5 is made of it:
R55 says of it only what is not counted (log 168). -/
def inspect (a : Ask) (b : Block) : Seen :=
  if a.slotTag then
    { block := b, poisoned := true, count := 0, fixed := 0, bad := false, detail := 0, poisonSeen := false,
      headerAnomaly := false, tenantFault := false, recheck := false, slotTag := true }
  else
    let d := decodeBlock b
    if d.bad then
      { block := d.block, poisoned := true, count := 0, fixed := d.fixed, bad := true, detail := d.detail, poisonSeen := false,
        headerAnomaly := false, tenantFault := false, recheck := false, slotTag := false }
    else
      let h := d.block
      let f := fmtOf (hFormat h)
      let tooMany := match f with | some x => decide (x.cap < hCount h) | none => false
      let wrong := match a.expect with | some e => hFormat h != e | none => false
      let prov := a.atRest && hProvisional h
      let tf := match a.tenant with | some t => !hPoison h && hTenant h != t | none => false
      let marked := f.isNone || wrong || tf || d.recheck
      let h1 := if prov then BitVec.ofNat 2048 (h.toNat - 128) else h
      { block := if marked && !hPoison h then markPoison h1 else h1
        poisoned := hPoison h || marked
        count := match f with | some x => min x.cap (hCount h) | none => 0
        fixed := d.fixed, bad := false, detail := d.detail, poisonSeen := hPoison h
        headerAnomaly := f.isNone || tooMany || wrong || prov, tenantFault := tf, recheck := d.recheck, slotTag := false }

/-- R58, R85: the counters one inspection advances; `cl` is the cluster of a spawn lane. -/
def countSeen (cl : Option Nat) (v : Seen) (s : State) : State :=
  if v.slotTag then bump (key 0xA010 5) 1 s
  else
    let s := bumpIf (v.fixed != 0 && !v.bad) (key 0xA010 1) 1 (bump (key 0xA010 2) v.fixed s)
    let s := bumpIf v.bad (key 0xA010 3) 1 s
    let s := bumpIf v.poisonSeen (key 0xA010 4) 1 s
    countAnoms cl { header := b2n v.headerAnomaly } s

/-- R51, R54, R56, R374: the reports one inspection raises against the unit `src`. -/
def reportSeen (src akind addr op stream tenant : Nat) (v : Seen) (s : State) : State :=
  let det : Detection :=
    { source := BitVec.ofNat 12 src, cls := .contained, access := 1, akind := BitVec.ofNat 2 akind, addr := BitVec.ofNat 48 addr,
      detail := BitVec.ofNat 24 v.detail, op := BitVec.ofNat 8 op, stream := BitVec.ofNat 10 stream,
      tenant := BitVec.ofNat 8 tenant }
  let s := if v.bad then raise det s else if v.fixed != 0 then raise { det with cls := .corrected } s else s
  let s := if v.recheck then raise { det with access := 0, detail := 0 } s else s
  if v.tenantFault then raise { det with access := 5, detail := 0 } s else s

end Sys2Proof.Machine
end

