-- ==== Sys2Proof/Machine/Formats.lean ====
section
/-! DEFINITION. The element formats (03): expansion of every payload, its anomalies, and the group encodings a producer writes;
the Walsh-Hadamard rotation of R108. -/

namespace Sys2Proof.Machine

/-! ## Rotation (R108) -/

/-- The butterfly stages 0 to n - 1 on 2^n values: H·v of order 2^n. -/
def wht : Nat → List Int → List Int
  | 0, v => v
  | n + 1, v =>
    let a := wht n (v.take (2 ^ n))
    let b := wht n (v.drop (2 ^ n))
    List.zipWith (· + ·) a b ++ List.zipWith (· - ·) a b

/-- R108: the 64-point rotation, forward and inverse. -/
def wht64 (v : List Int) : List Int := wht 6 v

/-! ## One group (R62, R63, R83) -/

/-- A group as expanded, with the kinds of anomaly it showed (each counts at most once per group, R83). -/
structure GroupOut where
  vals : List Int
  code : Bool := false
  overcap : Bool := false
  intMin : Bool := false
  stray : Bool := false
  deriving DecidableEq, Repr

/-- Digit mapping of the ternary formats. -/
def tritOf (d : Nat) : Int := if d == 1 then 1 else if d == 2 then -1 else 0

/-- Values at and above V are zero (R63). -/
def cutAt (v : Nat) (l : List Int) : List Int := l.zipIdx.map (fun p => if p.2 < v then p.1 else 0)

/-- The five base-3 digits of a trit byte. -/
def tritDigits (b : Nat) : List Nat := [b % 3, b / 3 % 3, b / 9 % 3, b / 27 % 3, b / 81 % 3]

/-- R66, R67: a WT5-family group of g weights. A trit byte that holds no valid weight reads as zero digits, its unused digits with
it: R63 gives positions at and above V no effect, and R67 does not say whether such a digit is stray (log 134). -/
def decWt5 (g v : Nat) (grp : List Nat) : GroupOut :=
  let nt := (g + 4) / 5
  let bytes := (grp.take nt).zipIdx.map (fun p => if 5 * p.2 < v then p.1 else 0)
  let digits := bytes.flatMap (fun b => if b ≥ 243 then [0, 0, 0, 0, 0] else tritDigits b)
  { vals := cutAt v ((digits.take g).map tritOf)
    code := bytes.any (· ≥ 243)
    stray := (digits.drop g).any (· != 0) }

/-- Table 3.3: positions a and b of a pair. -/
def pairA (p : Nat) : Nat := nth 0 [0, 0, 0, 1, 1, 2] p
def pairB (p : Nat) : Nat := nth 0 [1, 2, 3, 2, 3, 3] p

/-- R68, R70: the four weights of a quad code. -/
def quadOf (code : Nat) : List Int :=
  if code > 0x35 then [0, 0, 0, 0]
  else
    let p := code / 9
    let v := code % 9
    (List.range 4).map (fun k => if k == pairA p then tritOf (v % 3) else if k == pairB p then tritOf (v / 3) else 0)

/-- R71: read transposed: within each 4x4 block, element 4r + c goes to 4c + r. -/
def transposeWs (w : List Int) : List Int :=
  (List.range 64).map (fun i => nth 0 w (16 * (i / 16) + 4 * (i % 4) + i / 4 % 4))

/-- A delivered quad keeps its two lowest-row non-zeros (R71); `n` counts those kept so far. -/
def keepTwo : Nat → List Int → List Int
  | _, [] => []
  | n, x :: r => if x == 0 then 0 :: keepTwo n r else if n < 2 then x :: keepTwo (n + 1) r else 0 :: keepTwo n r

/-- R68, R70, R71: a WS24 or WS24T group. -/
def decWs24 (transposed : Bool) (v : Nat) (grp : List Nat) : GroupOut :=
  let word := ofBytes (grp.take 12)
  let codes := (List.range 16).map (fun q => if 4 * q < v then fld word (6 * q) 6 else 0)
  let w := cutAt v (codes.flatMap quadOf)
  let code := codes.any (· > 0x35)
  if transposed then
    let t := transposeWs w
    let k := (chunksOf 4 16 t).flatMap (keepTwo 0)
    { vals := k, code := code, overcap := k != t }
  else { vals := w, code := code }

/-- R72, R73: weights from position i on; `j` is the number of set bits below. -/
def wbWeights (cap v bitmap signs : Nat) : Nat → Nat → Nat → List Int
  | 0, _, _ => []
  | n + 1, i, j =>
    if bitAt bitmap i then
      (if j < cap && i < v then (if bitAt signs j then -1 else 1) else 0) :: wbWeights cap v bitmap signs n (i + 1) (j + 1)
    else 0 :: wbWeights cap v bitmap signs n (i + 1) j

/-- R72 to R74: a WB group of cap `cap`. -/
def decWb (cap v : Nat) (grp : List Nat) : GroupOut :=
  let bitmap := ofBytes (grp.take 8)
  let signs := ofBytes ((grp.drop 8).take (cap / 8))
  { vals := wbWeights cap v bitmap signs 64 0 0
    overcap := popcount 64 (bitmap % 2 ^ v) > cap
    stray := signs / 2 ^ popcount 64 bitmap != 0 }

/-- R75: an int8 code. -/
def int8Of (b : Nat) : Int := if b == 0x80 then -127 else sint 8 b

/-- R75. -/
def decAi8 (v : Nat) (grp : List Nat) : GroupOut :=
  { vals := cutAt v ((grp.take 32).map int8Of), intMin := (grp.take v).any (· == 0x80) }

/-- The nibbles of a byte string, low first. -/
def nibbles (l : List Nat) : List Nat := l.flatMap (fun b => [b % 16, b / 16 % 16])

/-- R76, R79, R63: all 64 stored codes enter the inverse rotation. -/
def decAi4 (v : Nat) (grp : List Nat) : GroupOut :=
  let n := nibbles (grp.take 32)
  { vals := cutAt v (wht64 (n.map (fun x => if x == 8 then -7 else sint 4 x))), intMin := n.any (· == 8) }

/-- R77: position codes and value bytes of an AS24 group. -/
def as24Quad (grp : List Nat) (q : Nat) : Nat × Nat × Nat :=
  (fld (ofBytes (grp.take 3)) (3 * q) 3, nth 0 grp (3 + 2 * q), nth 0 grp (4 + 2 * q))

/-- R77. -/
def decAs24 (v : Nat) (grp : List Nat) : GroupOut :=
  let quads := (List.range 8).map (fun q => (q, as24Quad grp q))
  let seen := quads.filter (fun x => 4 * x.1 < v)
  let good := seen.filter (fun x => x.2.1 < 6)
  { vals := cutAt v (quads.flatMap (fun x =>
      let p := x.2.1
      if p < 6 then (List.range 4).map (fun k =>
        if k == pairA p then int8Of x.2.2.1 else if k == pairB p then int8Of x.2.2.2 else 0)
      else [0, 0, 0, 0]))
    code := seen.any (fun x => x.2.1 ≥ 6)
    intMin := good.any (fun x => (x.2.2.1 == 0x80 && 4 * x.1 + pairA x.2.1 < v)
      || (x.2.2.2 == 0x80 && 4 * x.1 + pairB x.2.1 < v)) }

/-- R78: the entries (index, value byte) of an AK group. -/
def akRaw (k : Nat) (grp : List Nat) : List (Nat × Nat) :=
  let word := ofBytes (grp.take (6 * k / 8))
  (List.range k).map (fun e => (fld word (6 * e) 6, nth 0 grp (6 * k / 8 + e)))

/-- R78, R79: the entries that are placed, and whether a duplicate was met; `seen` are the indices taken. -/
def akPlace (rot : Bool) (v : Nat) : List (Nat × Nat) → List Nat → List (Nat × Nat) × Bool
  | [], _ => ([], false)
  | e :: r, seen =>
    if !rot && e.1 ≥ v then akPlace rot v r seen
    else if seen.contains e.1 then ((akPlace rot v r seen).1, true)
    else let t := akPlace rot v r (e.1 :: seen); (e :: t.1, t.2)

/-- R78, R79. -/
def decAk (k : Nat) (rot : Bool) (v : Nat) (grp : List Nat) : GroupOut :=
  let p := akPlace rot v (akRaw k grp) []
  let x := (List.range 64).map (fun i => match p.1.find? (fun e => e.1 == i) with | some e => int8Of e.2 | none => 0)
  { vals := cutAt v (if rot then wht64 x else x), intMin := p.1.any (fun e => e.2 == 0x80), stray := p.2 }

/-- R80: one CX32 element. -/
def cxOf (u : Nat) : Int := if u == 0x80000000 then -(2 ^ 31 - 1) else sint 32 u

/-- R80. -/
def decCx (v : Nat) (grp : List Nat) : GroupOut :=
  let us := (chunksOf 4 56 grp).map ofBytes
  { vals := cutAt v (us.map cxOf), intMin := (us.take v).any (· == 0x80000000) }

/-- The group decoder of a format; `rot` is the rotation that applies (R79), `tr` a transposed read. -/
def decGroup (f : Fmt) (rot tr : Bool) (v : Nat) (grp : List Nat) : GroupOut :=
  match f.code with
  | 0x01 | 0x02 | 0x03 => decWt5 f.group v grp
  | 0x04 => decWs24 false v grp
  | 0x05 => decWs24 tr v grp
  | 0x06 => decWb 8 v grp
  | 0x07 => decWb 16 v grp
  | 0x08 => decWb 24 v grp
  | 0x09 => decWb 32 v grp
  | 0x10 => decAi8 v grp
  | 0x11 => decAi4 v grp
  | 0x12 => decAs24 v grp
  | 0x13 => decAk 16 rot v grp
  | 0x14 => decAk 8 rot v grp
  | _ => decCx v grp

/-! ## One container -/

/-- A container's expansion: its elements, its weight group mantissas, whether its blocks are rotated, its anomalies. -/
structure Expanded where
  vals : List Int
  mants : List Nat
  rotated : Bool
  anoms : Anoms
  deriving DecidableEq, Repr

/-- R79, R81: the rotation that applies and the inconsistent header flags. -/
def rotationOf (f : Fmt) (b : Block) : Bool := f.code == 0x11 || ((f.code == 0x13 || f.code == 0x14) && hRotated b)

def flagStrays (f : Fmt) (b : Block) : Nat :=
  b2n (if f.code == 0x11 then !hRotated b else !(f.code == 0x13 || f.code == 0x14) && hRotated b)
  + b2n (hTransposable b != (f.code == 0x05))

/-- Expand a container that the checks accept, with `count` its VALID_COUNT as taken (R56, R62 to R65, R81). -/
def expandBlock (f : Fmt) (tr : Bool) (count : Nat) (b : Block) : Expanded :=
  let rot := rotationOf f b
  let strays := flagStrays f b
  if hZeroChan b then
    { vals := List.replicate f.cap 0, mants := if f.isWeight then List.replicate f.groups 0 else [], rotated := rot,
      anoms := { stray := strays } }
  else
    let gs := (chunksOf f.bytes f.groups (payloadOf b)).zipIdx.map (fun p =>
      let v := min f.group (count - f.group * p.2)
      (v, p.1, if v == 0 then { vals := List.replicate f.group 0 } else decGroup f rot tr v p.1))
    { vals := gs.flatMap (fun g => g.2.2.vals)
      mants := if f.isWeight then gs.map (fun g => if g.1 == 0 then 0 else nth 0 g.2.1 (f.bytes - 1))
               else []
      rotated := rot
      anoms := { code := (gs.filter (fun g => g.2.2.code)).length, overcap := (gs.filter (fun g => g.2.2.overcap)).length,
                 intMin := (gs.filter (fun g => g.2.2.intMin)).length,
                 stray := strays + (gs.filter (fun g => g.2.2.stray)).length } }

/-- What a consumer takes from a container treated as poisoned: nothing is expanded (R83). -/
def expandPoisoned (f : Fmt) : Expanded :=
  { vals := List.replicate f.cap 0, mants := if f.isWeight then List.replicate f.groups 0 else [], rotated := false, anoms := {} }

/-! ## Group encodings of a producer -/

def digitOf (t : Int) : Nat := if t == 0 then 0 else if t > 0 then 1 else 2

/-- R66: trit bytes and the mantissa byte. -/
def encWt5 (trits : List Int) (mant : Nat) : List Nat :=
  (chunksOf 5 26 trits).map (fun c => (c.map digitOf).foldr (fun d a => d + 3 * a) 0) ++ [mant]

/-- R69: the canonical code of a quad with at most two non-zero weights. -/
def encQuad (q : List Int) : Nat :=
  let nz := positions 4 (fun k => nth 0 q k != 0)
  let p := match nz with
    | [a, b] => nth 0 (positions 6 (fun p => pairA p == a && pairB p == b)) 0
    | [a] => nth 0 (positions 6 (fun p => pairA p == a || pairB p == a)) 0
    | _ => 0
  9 * p + digitOf (nth 0 q (pairA p)) + 3 * digitOf (nth 0 q (pairB p))

/-- Pack fields of `n` bits each, first lowest. -/
def packFields (n : Nat) (l : List Nat) : Nat := l.foldr (fun x a => x % 2 ^ n + 2 ^ n * a) 0

/-- R68. -/
def encWs24 (trits : List Int) (mant : Nat) : List Nat :=
  toBytes 12 (packFields 6 ((chunksOf 4 16 trits).map encQuad)) ++ [mant]

/-- R72. -/
def encWb (cap : Nat) (trits : List Int) (mant : Nat) : List Nat :=
  toBytes 8 (packFields 1 (trits.map (fun t => b2n (t != 0))))
  ++ toBytes (cap / 8) (packFields 1 ((trits.filter (· != 0)).map (fun t => b2n (t < 0)))) ++ [mant]

/-- R75. -/
def encAi8 (codes : List Int) : List Nat := codes.map (twos 8)

/-- R76. -/
def encAi4 (codes : List Int) : List Nat :=
  (chunksOf 2 32 codes).map (fun c => twos 4 (nth 0 c 0) + 16 * twos 4 (nth 0 c 1))

/-- R77: pair number and both kept codes of each quad. -/
def encAs24 (quads : List (Nat × Int × Int)) : List Nat :=
  toBytes 3 (packFields 3 (quads.map (·.1))) ++ quads.flatMap (fun q => [twos 8 q.2.1, twos 8 q.2.2])

/-- R78: entries in ascending index order. -/
def encAk (entries : List (Nat × Int)) : List Nat :=
  toBytes (6 * entries.length / 8) (packFields 6 (entries.map (·.1))) ++ entries.map (fun e => twos 8 e.2)

/-- R80. -/
def encCx (vals : List Int) : List Nat := vals.flatMap (fun v => toBytes 4 (twos 32 v))

/-- R40: DENSITY. -/
def densityOf (f : Fmt) (nz : Nat) : Nat := 255 * nz / f.nmax

end Sys2Proof.Machine
end

