-- ==== Sys2Proof/Machine/Scaling.lean ====
section
/-! DEFINITION. Scales, rounding and the running-maximum tracker (04): exact step search, window records, quantisation,
ternary re-packing, the scale save record. Magnitudes are exact: a value is an integer times a power of two. -/

namespace Sys2Proof.Machine

/-! ## Exact magnitudes -/

/-- a × 2^e as a numerator and a denominator, both natural. -/
def shiftRat (a : Nat) (e : Int) : Nat × Nat := (a * 2 ^ e.toNat, 2 ^ (-e).toNat)

/-- ⌊log2 (a ÷ b)⌋ for positive a and b. -/
def floorLog2 (a b : Nat) : Int :=
  let k : Int := (log2 a : Int) - (log2 b : Int)
  let lo := shiftRat b k
  if a * lo.2 < lo.1 then k - 1 else k

/-- |n| × 2^e. -/
def magnitude (n : Int) (e : Int) : Dyad := { m := n.natAbs, x := e }

/-- The order of exact magnitudes. -/
def Dyad.le (a b : Dyad) : Bool :=
  if a.x ≤ b.x then a.m ≤ b.m * 2 ^ (b.x - a.x).toNat else a.m * 2 ^ (a.x - b.x).toNat ≤ b.m

/-- The larger of two magnitudes. -/
def Dyad.max (a b : Dyad) : Dyad := if a.le b then b else a

/-- The largest of a list; 0 when empty. -/
def maxDyad (l : List Dyad) : Dyad := l.foldl Dyad.max { m := 0, x := 0 }

/-! ## Steps (R97, R101) -/

/-- A step M × 2^(e - 7), with what was clamped. -/
structure StepOut where
  mant : Nat
  exp : Int
  low : Bool
  high : Bool
  deriving DecidableEq, Repr

/-- R97: the smallest normalised step for headroom h64 ÷ 64, magnitude m > 0, Qmax and base B, exponents in lo to hi. -/
def stepFor (m : Dyad) (h64 qmax : Nat) (base lo hi : Int) : StepOut :=
  let a := 2 * h64 * m.m
  let b := 64 * (2 * qmax + 1)
  let k0 := floorLog2 a b
  let sh := shiftRat a (7 - k0)
  let mant := sh.1 / (b * sh.2) + 1
  let e := k0 + m.x - base
  let mant' := if mant == 256 then 128 else mant
  let e' := if mant == 256 then e + 1 else e
  if e' < lo then { mant := 128, exp := lo, low := true, high := false }
  else if e' > hi then { mant := 255, exp := hi, low := false, high := true }
  else { mant := mant', exp := e', low := false, high := false }

/-- Qmax of an activation format (R96): 7 for AI4, else 127. -/
def qmaxOf (fmt : Nat) : Nat := if fmt == 0x11 then 7 else 127

/-- R101: SCALE_MANT and EXP of a per-token container whose largest magnitude is m. -/
def perTokenStep (m : Dyad) (qmax : Nat) (floorExp : Int) : StepOut :=
  if m.m == 0 then { mant := 0x80, exp := floorExp, low := false, high := false } else stepFor m 64 qmax 0 (-128) 127

/-! ## Entries (R88, R95, R96) -/

def entryMant (v : BitVec 16) : Nat := fld v.toNat 8 8
def entryExp (v : BitVec 16) : Int := sint 6 (fld v.toNat 2 6)

/-- Table 4.2. -/
def entryWord (mant : Nat) (e : Int) (floor sat : Bool) : BitVec 16 :=
  BitVec.ofNat 16 (put mant 8 8 + put (twos 6 e) 2 6 + put (b2n floor) 1 1 + put (b2n sat) 0 1)

/-- R95: the window record of a step maximum. Of a maximum of zero the rule gives ZERO and the mantissa, not e: the model writes 0 there, which
Table 4.3 shows (log 185). -/
def windowRecord (m : Dyad) (base : Int) : BitVec 16 :=
  if m.m == 0 then entryWord 0 0 true false
  else
    let k := floorLog2 m.m 1
    let sh := shiftRat m.m (7 - k)
    let mant := ceilDiv sh.1 sh.2
    let e := k + m.x - base
    let mant' := if mant == 256 then 128 else mant
    let e' := if mant == 256 then e + 1 else e
    if e' < -32 then entryWord 128 (-32) false false
    else if e' > 31 then entryWord 255 31 false false
    else entryWord mant' e' false false

def recordZero (r : BitVec 16) : Bool := bitAt r.toNat 1

/-- The magnitude M × 2^(e + B - 7) that a record stores. -/
def recordDyad (base : Int) (r : BitVec 16) : Dyad := { m := entryMant r, x := entryExp r + base - 7 }

/-- The tracker's parameters in force (Table 4.5, read at plan load). -/
structure ScaleCfg where
  window : Nat
  headroom : Nat
  floorMant : Nat
  floorExp : Int
  deriving DecidableEq, Repr

/-- R96 steps 1 and 2 on a non-empty history: the entry's new mantissa, exponent and FLOOR, and whether it was clamped upward. -/
def recompute (cfg : ScaleCfg) (base : Int) (qmax : Nat) (h : List (BitVec 16)) : Nat × Int × Bool × Bool :=
  if h.all recordZero then (cfg.floorMant, cfg.floorExp, true, false)
  else
    let m := maxDyad ((h.filter (fun r => !recordZero r)).map (recordDyad base))
    let st := stepFor m cfg.headroom qmax base (-32) 31
    (st.mant, st.exp, false, st.high)

/-- R96: the entry is ready: its history holds W records for the W in force, it was written through the dictionary, or it was
restored with its ready byte set (`en.ready` says one of the last two). -/
def entryReady (window : Nat) (en : ScaleEntry) : Bool := en.ready || window ≤ en.hist.length

/-- R95: the most recent W records. -/
def recentRecords (window : Nat) (h : List (BitVec 16)) : List (BitVec 16) := h.drop (h.length - window)

/-- R95, R96: one entry at a step boundary; the second component says whether SCALE_CLAMP advances. -/
def entryBoundary (cfg : ScaleCfg) (en : ScaleEntry) : ScaleEntry × Bool :=
  let base := match en.owner with | some o => o.2 | none => 0
  let sat := en.satCount != 0
  match en.stepMax with
  | none =>
    ({ en with val := entryWord (entryMant en.val) (entryExp en.val) (recordZero en.val) sat, satCount := 0, used := false }, false)
  | some m =>
    let h := recentRecords cfg.window (en.hist ++ [windowRecord m base])
    let en := { en with hist := h, written := en.written && !(decide (cfg.window ≤ h.length)), stepMax := none, satCount := 0,
                        used := false }
    if entryReady cfg.window en && !en.written then
      let r := recompute cfg base en.qmax h
      ({ en with val := entryWord r.1 r.2.1 r.2.2.1 sat }, r.2.2.2)
    else ({ en with val := entryWord (entryMant en.val) (entryExp en.val) (recordZero en.val) sat }, false)

/-- The step boundary of a scale file: the new file and the number of upward clamps. -/
def fileBoundary (cfg : ScaleCfg) (t : Tab ScaleEntry) : Tab ScaleEntry × Nat :=
  let r := t.map (fun e => (e.1, entryBoundary cfg e.2))
  ((r.map (fun e => (e.1, e.2.1))).filter (fun e => e.2 != ScaleEntry.cleared), (r.filter (fun e => e.2.2)).length)

/-- R89: a pack instruction of a tensor (TSEQ, B) with quantiser range qmax uses an entry. -/
def useEntry (tseq : Nat) (base : Int) (qmax : Nat) (en : ScaleEntry) : ScaleEntry :=
  match en.owner with
  | none => { en with owner := some (tseq, base), qmax := qmax, used := true }
  | some o =>
    if o = (tseq, base) then { en with qmax := qmax, used := true }
    else if en.used then en
    else { ScaleEntry.cleared with owner := some (tseq, base), qmax := qmax, used := true }

/-- R94: observe a magnitude. -/
def observeEntry (m : Dyad) (en : ScaleEntry) : ScaleEntry :=
  { en with stepMax := some (match en.stepMax with | none => m | some o => o.max m) }

/-- R102 step 3: `n` values of the entry saturated; the count is a U16 that saturates (Table 4.3). -/
def saturateEntry (n : Nat) (en : ScaleEntry) : ScaleEntry := { en with satCount := min (en.satCount + n) 65535 }

/-- R96, R100: containers may use the entry's step. An entry without a mantissa has no step (log 10). -/
def entryUsable (window : Nat) (en : ScaleEntry) : Bool := entryReady window en && entryMant en.val != 0

/-! ## Quantisation (R102, R103) -/

/-- One step of the generator of R103. -/
def genStep (u : Nat) : Nat := if u % 2 == 1 then Nat.xor (u / 2) 0xB400 else u / 2

/-- R103: the state loaded at the start of a container. -/
def genSeed (seed index : Nat) : Nat := let v := Nat.xor (seed % 65536) (index % 65536); if v == 0 then 1 else v

/-- n × 2^e ÷ (mant × 2^k): floor, remainder and divisor. -/
def quotient (n e : Int) (mant : Nat) (k : Int) : Int × Nat × Nat :=
  let num : Int := n * (2 ^ (e - k).toNat : Nat)
  let den : Nat := mant * 2 ^ (k - e).toNat
  (num / (den : Int), (num % (den : Int)).toNat, den)

/-- Half to even. -/
def roundEven (q : Int × Nat × Nat) : Int :=
  if 2 * q.2.1 < q.2.2 then q.1
  else if q.2.2 < 2 * q.2.1 then q.1 + 1
  else if q.1 % 2 == 0 then q.1 else q.1 + 1

/-- R103: up when u < frac16. -/
def roundStoch (u : Nat) (q : Int × Nat × Nat) : Int := if u < q.2.1 * 65536 / q.2.2 then q.1 + 1 else q.1

/-- Saturate to -q and +q. -/
def satTo (q : Nat) (i : Int) : Int := if i < -(q : Int) then -(q : Int) else if (q : Int) < i then q else i

/-- R102 steps 1 and 2 on x = n × 2^e at step mant × 2^k; `u` selects stochastic rounding. The code, and whether it saturated. -/
def quantise (n e : Int) (mant : Nat) (k : Int) (qmax : Nat) (u : Option Nat) : Int × Bool :=
  let q := quotient n e mant k
  let r := match u with | none => roundEven q | some u => roundStoch u q
  (satTo qmax r, satTo qmax r != r)

/-! ## Ternary re-packing (R107, R163) -/

/-- R107, R163: trits of a group whose kept positions are `keep`, and the mantissa with whether SCALE_CLAMP advances.
Values are n × 2^e. -/
def repackGroup (vals : List Int) (e bw : Int) (keep : Nat → Bool) : List Int × Nat × Bool :=
  let g := vals.length
  let tot := nsum (vals.map Int.natAbs)
  let trits := vals.zipIdx.map (fun p =>
    if keep p.2 && 2 * g * p.1.natAbs > tot then (if p.1 < 0 then (-1 : Int) else 1) else 0)
  -- β × 2^(7 - B_w) with β = tot × 2^e ÷ g
  let q := quotient tot (e + 7 - bw) g 0
  let m := roundEven q
  let sat := (255 : Int) < m
  (trits, if sat then 255 else m.toNat, sat || (m == 0 && trits.any (· != 0)))

/-! ## The scale save record (R105, Table 4.3) -/

/-- The 64 bytes of an entry's record under the W in force. The oldest record is stored at index 0 (log 11). -/
def saveRecord (window : Nat) (en : ScaleEntry) : List Nat :=
  let h := recentRecords window en.hist
  toBytes 2 en.val.toNat ++ [h.length, 0] ++ toBytes 2 en.satCount ++ [b2n (entryReady window en), 0]
  ++ (List.range 16).flatMap (fun i => toBytes 2 (nth 0 h i).toNat) ++ List.replicate 24 0

/-- R105: an entry restored from its record, owned by the tensor (TSEQ, B) that the SCREST names. Table 4.3 holds no step maximum
and no mark that the entry was used, so a restore leaves neither (log 136); nor that it was written through the dictionary, so a restored
entry is replaced at its next record (log 171). -/
def restoreRecord (tseq : Nat) (base : Int) (qmax : Nat) (r : List Nat) : ScaleEntry :=
  let n := min (nth 0 r 2) 16
  let old := nth 0 r 3
  { val := BitVec.ofNat 16 (ofBytes (r.take 2))
    hist := (List.range n).map (fun i => BitVec.ofNat 16 (ofBytes ((r.drop (8 + 2 * ((old + i) % 16))).take 2)))
    ready := nth 0 r 6 == 1, written := false, owner := some (tseq, base), qmax := qmax, satCount := ofBytes ((r.drop 4).take 2),
    stepMax := none, used := false }

end Sys2Proof.Machine
end

