-- ==== Sys2Proof/Machine/Regions.lean ====
section
/-! DEFINITION. Memory regions (10): the region table, interleave, the request word, the access checks, retirement candidates,
the retired page list and the addend of an expand-and-add request. -/

namespace Sys2Proof.Machine

/-! ## Entries (R249, Table 10.1) -/

def rgValid (e : Nat) : Bool := bitAt e 127
def rgPriv (e : Nat) : Bool := bitAt e 126
def rgTchk (e : Nat) : Bool := bitAt e 125
def rgShared (e : Nat) : Bool := bitAt e 124
def rgDie (e : Nat) : Bool := bitAt e 123
def rgIlv (e : Nat) : Nat := fld e 120 3
def rgStk (e : Nat) : Nat := fld e 118 2
def rgFmt (e : Nat) : Nat := fld e 111 7
def rgTenant (e : Nat) : Nat := fld e 103 8
def rgBase (e : Nat) : Nat := fld e 76 27 * 2 ^ 21
def rgSize (e : Nat) : Nat := fld e 56 20 * 2 ^ 21
def rgLbase (e : Nat) : Nat := fld e 40 16 * 2 ^ 21

/-- The entry of region r as written. -/
def regionEntry (s : State) (r : Nat) : Nat := obj s (key (0x3000 + r) 1)

/-- The address lies within the region. -/
def rgContains (e a : Nat) : Bool := rgValid e && rgBase e ≤ a && a < rgBase e + rgSize e

/-- R260: the valid region that contains an address. -/
def regionOf (s : State) (a : Nat) : Option Nat := (List.range 64).find? (fun r => rgContains (regionEntry s r) a)

/-- R251: the valid privileged entry that contains an address. -/
def privRegionOf (s : State) (a : Nat) : Option Nat :=
  (List.range 64).find? (fun r => rgContains (regionEntry s r) a && rgPriv (regionEntry s r))

/-! ## Interleave (R252, Table 10.2) and the request word (R436, Table 20.2) -/

/-- Granule and stack count of a mode; the granule of the linear mode is the whole region. -/
def ilvMode (m : Nat) : Option (Nat × Nat) :=
  match m with
  | 0 => some (0, 1) | 1 => some (256, 2) | 2 => some (4096, 2) | 3 => some (256, 4) | 4 => some (4096, 4)
  | _ => none

/-- The period of a mode (Table 10.2). -/
def ilvPeriod (m : Nat) : Nat := match m with | 0 => 4096 | 1 => 512 | 2 => 8192 | 3 => 1024 | _ => 16384

/-- The number of stacks a region's mode uses. -/
def ilvStacks (e : Nat) : Nat := match ilvMode (rgIlv e) with | some m => m.2 | none => 1

/-- R252: stack and stack-local address of an address in a region. -/
def interleaveOf (e a : Nat) : Nat × Nat :=
  let o := a - rgBase e
  match ilvMode (rgIlv e) with
  | some (g, n) =>
    if g == 0 then (rgStk e, rgLbase e + o)
    else (rgStk e + o / g % n, rgLbase e + o / (g * n) * g + o % g)
  | none => (rgStk e, rgLbase e + o)

/-- Table 20.2. -/
def requestWord (e stack laddr op : Nat) : Word :=
  let gran := if rgIlv e == 1 || rgIlv e == 3 then 0 else 1
  BitVec.ofNat 64 (put (b2n (rgPriv e)) 63 1 + put (b2n (rgDie e)) 62 1 + put stack 60 2 + put gran 59 1 + put op 57 2
    + put laddr 0 37)

/-! ## Driver writes of an entry (R250) -/

/-- Half-open intervals overlap. -/
def overlaps (a la b lb : Nat) : Bool := a < b + lb && b < a + la

/-- Two valid entries overlap in fabric addresses, or in the local addresses of a stack both use. -/
def rgOverlap (e f : Nat) : Bool :=
  overlaps (rgBase e) (rgSize e) (rgBase f) (rgSize f)
  || (rgDie e == rgDie f
      && overlaps (rgStk e) (ilvStacks e) (rgStk f) (ilvStacks f)
      && overlaps (rgLbase e) (rgSize e / ilvStacks e) (rgLbase f) (rgSize f / ilvStacks f))

/-- R250: a write with VALID set passes the checks of the first list. -/
def regionWritable (s : State) (r e : Nat) : Bool :=
  match ilvMode (rgIlv e) with
  | none => false
  | some (_, n) =>
    fld e 0 40 == 0 && rgFmt e ≤ 0x42 && 1 ≤ fld e 56 20 && fld e 56 20 ≤ 524288
    && (n == 1 || (n == 2 && rgStk e % 2 == 0) || (n == 4 && rgStk e == 0)) && rgStk e + n ≤ nStacks s.hw
    && rgSize e % ilvPeriod (rgIlv e) == 0
    && rgLbase e + rgSize e / n ≤ 128 * 10 ^ 9
    && !(rgDie e && (rgFmt e == 0x41 || rgFmt e == 0x42))
    && (List.range 64).all (fun k => k == r || !rgValid (regionEntry s k) || !rgOverlap e (regionEntry s k))

/-- Region index named by a tensor descriptor (Table 9.4). -/
def tdRegion (d : BitVec 256) : Nat := fld d.toNat 134 6

/-- R250: the entry is in use by the active or the staged plan. -/
def regionBusy (s : State) (r : Nat) : Bool :=
  let names (im : Option Image) : Bool := match im with | some x => x.tensors.any (fun d => tdRegion d == r) | none => false
  let e := regionEntry s r
  rgValid e && (names s.plan.active || names s.plan.staged
    || match s.plan.active with
       | some x => rgContains e x.base || rgContains e (fld x.header.toNat 384 64)
       | none => false)

/-! ## Retired pages (R261) -/

/-- RET_PAGE of entry i. -/
def retKey (i : Nat) : Nat := key (0x3081 + i / 64) (i % 64 + 1)

/-- A valid entry of the retired page list names the page of an address. -/
def pageRetired (s : State) (a : Nat) : Bool :=
  s.objs.any (fun e => key 0x3081 1 ≤ e.1 && e.1 ≤ key 0x3084 64 && bitAt e.2 63 && fld e.2 0 36 == fld a 12 36)

/-- RET_COUNT. -/
def retCount (s : State) : Nat := ((List.range 256).filter (fun i => bitAt (obj s (retKey i)) 63)).length

/-! ## Candidates (R260, Table 10.5) -/

/-- Table 10.5. -/
def candRecord (s : State) (a source : Nat) : Nat :=
  let r := regionOf s a
  put s.clock.time 64 64 + put (b2n r.isNone) 62 1 + put (r.getD 0) 56 6 + put source 48 8 + put (a / 256 * 256) 0 48

/-- R260: add a candidate unless the ring already holds its address. -/
def addCandidate (a source : Nat) (s : State) : State :=
  let n := obj s (key 0x3090 1)
  let present := (List.range (min n 32)).any (fun p => fld (obj s (key 0x3091 (p + 1))) 0 48 == a / 256 * 256)
  if present then s else bump (key 0x3090 1) 1 (setObj (key 0x3091 (n % 32 + 1)) (candRecord s a source) s)

/-! ## Access checks (R254, Table 10.3) -/

/-- What an access moves. -/
inductive Content where
  | container (fmt : Nat) | raw | add
  deriving DecidableEq, Repr

/-- An access to check: the region its descriptor names, its address, whether its ordinal lies inside the descriptor, the tenant
(none where check 2 is skipped), read or write, and what it moves. -/
structure Access where
  region : Option Nat
  addr : Nat
  inside : Bool
  tenant : Option Nat
  read : Bool
  content : Content
  deriving DecidableEq, Repr

inductive AccessOut where
  | ok (stack : Nat) (word : Word)
  | refused
  | retired
  deriving DecidableEq, Repr

/-- Check 3: FMT admits the access. -/
def fmtAdmits (fmt : Nat) : Content → Bool
  | .container f => fmt == 0 || (fmt < 0x40 && fmt == f)
  | .raw => fmt == 0x40
  | .add => fmt == 0x41 || fmt == 0x42

/-- OP of the request word. -/
def opOf (e : Nat) : Content → Nat
  | .add => if rgFmt e == 0x42 then 2 else 1
  | _ => 0

/-- R316: after a twin death the other die's regions no longer answer; their accesses are refused like check 1. -/
def dieGone (s : State) (e : Nat) : Bool := rgDie e && s.twin.deadDies

/-- Table 10.3, in order. -/
def checkAccess (s : State) (a : Access) : AccessOut :=
  match a.region with
  | none => .refused
  | some r =>
    let e := regionEntry s r
    if !(rgContains e a.addr && a.inside) || dieGone s e then .refused
    else if (match a.tenant with | some t => !(t == rgTenant e || (a.read && rgShared e)) | none => false) then .refused
    else if !fmtAdmits (rgFmt e) a.content then .refused
    else if pageRetired s a.addr then .retired
    else let il := interleaveOf e a.addr; .ok il.1 (requestWord e il.1 il.2 (opOf e a.content))

/-- The counters of a refusal; POISON for the requesting stream (R254, R259). -/
def countRefusal (v : AccessOut) (stream : Nat) (s : State) : State :=
  match v with
  | .ok _ _ => s
  | .refused => flagPoison stream (bump (key 0x3070 1) 1 s)
  | .retired => flagPoison stream (bump (key 0x3070 2) 1 s)

/-- R251, R254: an access of the plan master or the housekeeping controller, which no descriptor governs; check 2 is skipped. -/
def privAccess (s : State) (addr : Nat) (read : Bool) : AccessOut :=
  checkAccess s { region := privRegionOf s addr, addr := addr, inside := true, tenant := none, read := read, content := .raw }

def AccessOut.isOk : AccessOut → Bool
  | .ok _ _ => true
  | _ => false

/-- R254: a refused privileged access of a source: RGN_REFUSED with a region fault, or RETIRED_HIT alone (Table 10.3). -/
def privRefused (src addr : Nat) (v : AccessOut) (s : State) : State :=
  match v with
  | .ok _ _ => s
  | .retired => bump (key 0x3070 2) 1 s
  | .refused =>
    raise { source := BitVec.ofNat 12 src, cls := .contained, access := 4, akind := 1, addr := BitVec.ofNat 48 addr }
      (bump (key 0x3070 1) 1 s)

/-! ## Expand-and-add (R262, R263) -/

/-- The addend of an I64 target for v × 2^x with target exponent b, and whether it is sent saturated. -/
def addendI64 (v : Int) (x b : Int) : Int × Bool :=
  let lim : Int := 2 ^ 63 - 1
  let sat : Int := if v < 0 then -lim else lim
  if b ≤ x then
    let w := v * (2 ^ (x - b).toNat : Nat)
    if -lim ≤ w && w ≤ lim then (w, false) else (sat, true)
  else
    let d : Int := (2 ^ (b - x).toNat : Nat)
    if v % d == 0 then (let w := v / d; if -lim ≤ w && w ≤ lim then (w, false) else (sat, true)) else (sat, true)

/-- binary32 of v × 2^x, half to even, overflow to infinity (R263). -/
def binary32 (v : Int) (x : Int) : Nat :=
  if v == 0 then 0
  else
    let sign := if v < 0 then 2 ^ 31 else 0
    let m := v.natAbs
    -- the unit in the last place of the result: 2^u
    let top : Int := (log2 m : Int) + x
    let u : Int := max (top - 23) (-149)
    let q := roundEven (quotient m x 1 u)
    let r := q.toNat
    -- r × 2^u, r at most 2^24
    let bits : Int := if u == -149 then (r : Int) else (r : Int) - 2 ^ 23 + (u + 150) * 2 ^ 23
    if (255 : Int) * 2 ^ 23 ≤ bits then sign + 255 * 2 ^ 23 else sign + bits.toNat

end Sys2Proof.Machine
end

