-- ==== Sys2Proof/Machine/Operands.lean ====
section
/-! DEFINITION. Operand forms: the descriptor tables of the active plan (Tables 9.4 to 9.7), index registers (R224), and the
ceilings of Tables 9.2 and 9.3. -/

namespace Sys2Proof.Machine

/-! ## Tensor descriptor (R233, Table 9.4) -/

def tdBase (d : Nat) : Nat := fld d 208 48
def tdLen (d : Nat) : Nat := fld d 188 20
def tdKind (d : Nat) : Nat := fld d 186 2
def tdFormat (d : Nat) : Nat := fld d 180 6
def tdTenant (d : Nat) : Nat := fld d 172 8
def tdTseq (d : Nat) : Nat := fld d 140 32
def tdRgn (d : Nat) : Nat := fld d 134 6
def tdB (d : Nat) : Int := sint 8 (fld d 126 8)
def tdEntry0 (d : Nat) : Nat := fld d 115 11
def tdNent (d : Nat) : Nat := fld d 103 12
def tdSeed (d : Nat) : Nat := fld d 87 16
def tdGpo (d : Nat) : Nat := fld d 73 14
def tdRot (d : Nat) : Bool := bitAt d 72
def tdSpair (d : Nat) : Bool := bitAt d 71

/-- Address of container or block k of a tensor (R254). -/
def tdAddr (d k : Nat) : Nat := tdBase d + 256 * k

/-! ## Tile descriptor (R234, Table 9.5) -/

def tlBase (d : Nat) : Nat := fld d 108 20
def tlRows (d : Nat) : Nat := fld d 104 4 + 1
def tlCols (d : Nat) : Nat := fld d 92 12 + 1
def tlStride (d : Nat) : Nat := if fld d 85 7 == 0 then tlCols d else 128 * fld d 85 7
def tlXt (d : Nat) : Int := sint 8 (fld d 77 8)
def tlStat (d : Nat) : Nat := fld d 57 20
def tlDecl (d : Nat) : Nat := fld d 43 14
def tlFar (d : Nat) : Nat := fld d 31 12

/-! ## Flick descriptor (R235, Table 9.6) -/

def fdThetaM (d : Nat) : Int := sint 32 (fld d 96 32)
def fdThetaE (d : Nat) : Int := sint 8 (fld d 88 8)
def fdNbase (d : Nat) : Nat := fld d 68 20
def fdNcount (d : Nat) : Nat := fld d 54 14
def fdGdesc (d : Nat) : Nat := fld d 42 12
def fdAdesc (d : Nat) : Nat := fld d 30 12
def fdAcnt (d : Nat) : Nat := fld d 24 6
def fdGcnt (d : Nat) : Nat := fld d 19 5

/-! ## Transfer descriptor (R236, Table 9.7) -/

def xdKind (d : Nat) : Nat := fld d 252 4
def xdPort (d : Nat) : Nat := fld d 248 4
def xdCluster (d : Nat) : Nat := fld d 243 5
def xdDesc (d : Nat) : Nat := fld d 231 12
def xdPeer (d : Nat) : Nat := fld d 219 12
def xdChannel (d : Nat) : Nat := fld d 209 10
def xdTenant (d : Nat) : Nat := fld d 201 8
def xdCexp (d : Nat) : Int := sint 8 (fld d 193 8)

/-! ## Tables of the active plan -/

def tensorOf (s : State) (i : Nat) : Nat := match s.plan.active with | some im => (nth 0 im.tensors i).toNat | none => 0
def tileOf (s : State) (i : Nat) : Nat := match s.plan.active with | some im => (nth 0 im.tiles i).toNat | none => 0
def flickOf (s : State) (i : Nat) : Nat := match s.plan.active with | some im => (nth 0 im.flicks i).toNat | none => 0
def transferOf (s : State) (i : Nat) : Nat := match s.plan.active with | some im => (nth 0 im.transfers i).toNat | none => 0

/-- R243: the physical cluster of a logical one. -/
def physicalOf (s : State) (l : Nat) : Nat := nth 0 s.plan.map l

/-- R56: the tenant compared with a container's TENANT, where the tensor's region has TCHK. -/
def tenantAsk (s : State) (d tenant : Nat) : Option Nat := if rgTchk (regionEntry s (tdRgn d)) then some tenant else none

/-- What a descriptor's access moves (check 3): containers of its FORMAT, or raw blocks. -/
def tdContent (d : Nat) : Content := if tdKind d == 1 then .raw else .container (tdFormat d)

/-- R224: an (x) field of `n` bits with the index register XSEL selects added. -/
def effective (sq : Seq) (xsel : BitVec 2) (n v : Nat) : Nat :=
  let x := match xsel.toNat with | 1 => sq.x1.toNat | 2 => sq.x2.toNat | 3 => sq.x3.toNat | _ => 0
  (v + x) % 2 ^ n

/-! ## Ceilings (R225, R228, Tables 5.3, 6.4, 9.3) -/

/-- Lane tasks per container (R118). -/
def tasksOf (f : Fmt) : Nat := if f.isWeight then f.cap / 64 else f.cap / 32

/-- Table 5.3, Table 6.4: sixteenths of a cycle per container. -/
def cycles16 (fmt : Nat) : Nat :=
  match fmtOf fmt with
  | some f => if f.isWeight then max 16 (tasksOf f) else max 16 (2 * tasksOf f)
  | none => 16

/-- Table 9.3 for XPW. -/
def ceilXpw (fmt n path : Nat) (krows : Bool) : Nat :=
  ceilDiv (n * cycles16 fmt * (if path == 2 && krows then 2 else 1)) 16

/-- Table 9.3 for XPA. -/
def ceilXpa (fmt n : Nat) : Nat := ceilDiv (n * cycles16 fmt) 16

/-- Table 9.3 for FLICK. -/
def ceilFlick (s : State) (fd rows : Nat) : Nat :=
  ceilDiv (rows * fdAcnt fd * cycles16 (tdFormat (tensorOf s (fdAdesc fd)))) 16
  + ceilDiv (fdNcount fd * fdGcnt fd * cycles16 (tdFormat (tensorOf s (fdGdesc fd)))) 16

/-- R295: the header overhead of a port's frames, by the ETH_MODE read at plan load. -/
def linkOverhead (s : State) (p : Nat) : Nat := match nth 0 s.plan.cfg.ethMode p with | 1 => 86 | 2 => 90 | _ => 48

/-- The link formula of R225. -/
def ceilLink (s : State) (p n : Nat) : Nat :=
  ceilDiv ((linkOverhead s p * ceilDiv n 32 + 256 * n) * 3000) (max 1 s.hw.linkRate.toNat)

/-- R274: ticks a verdict-only frame takes. -/
def ceilVerdictOnly (s : State) : Nat := ceilDiv (48 * 3000) (max 1 s.hw.linkRate.toNat)

end Sys2Proof.Machine
end

