-- ==== Sys2Proof/Machine/Flags.lean ====
section
/-! DEFINITION. Status words and pins the block computes from its state: PLAN_STATE, LANE_STATE, FAULT_SUMMARY,
SRC_STATE, and the output pins. -/

namespace Sys2Proof.Machine

/-- The unit of a sequencer is fenced (Table 9.14). -/
def seqFenced (s : State) (q : Nat) : Bool :=
  if q < 32 then (getCl s q).fenced else if q < 48 then (getPort s (q - 32)).fenced else false

/-- PLAN_STATE (Table 9.13). -/
def planStateWord (p : Plan) : Nat :=
  (match p.mode with | .none => 0 | .running => 1 | .paused => 2 | .armed => 3)
  + 16 * (match p.stage with | .empty => 0 | .loading => 1 | .staged => 2 | .refused => 3)

/-- A plan runs, is paused or is armed. -/
def planExists (s : State) : Bool := s.plan.mode != .none

/-- R222: frames of an active plan run. -/
def framesRun (s : State) : Bool := s.plan.mode == .running || s.plan.mode == .paused

/-- LANE_STATE (Table 5.7). -/
def laneStateWord (c : Cluster) : Nat :=
  put (b2n c.fenced) 23 1 + put (b2n c.stretched) 22 1 + put (b2n c.spareFor.isSome) 21 1 + put (c.spareFor.getD 0) 17 4
  + put c.lanesFenced 0 17

/-- Table 15.14. -/
def srcStateWord (v : SrcState) : Nat :=
  put v.count 16 16 + put (b2n v.watch) 4 1 + put (b2n v.kept) 3 1 + put (b2n v.fenced) 2 1 + put (b2n v.cont) 1 1
  + put (b2n v.corr) 0 1

/-- Some source has contained pending. -/
def contPending (s : State) : Bool := s.faults.src.any (fun e => e.2.cont)
def corrPending (s : State) : Bool := s.faults.src.any (fun e => e.2.corr)
def fencedCount (s : State) : Nat := (s.faults.src.filter (fun e => e.2.fenced)).length

/-- The record objects of Table 15.12. -/
def ferCorr : Nat := key 0x7010 1
def ferCont : Nat := key 0x7010 2
def ferFatal : Nat := key 0x7010 3

/-- FAULT_SUMMARY (Table 15.13). -/
def faultSummaryWord (s : State) : Nat :=
  put (fencedCount s) 16 16 + put (b2n s.faults.fatal) 4 1 + put (b2n (contPending s)) 3 1 + put (b2n (corrPending s)) 2 1
  + put (b2n (obj s ferCont != 0)) 1 1 + put (b2n (obj s ferCorr != 0)) 0 1

/-! ## Output pins (R443); true is the low, active level. Filtered PWR_OK low holds every output inactive (R441). -/

def powered (s : State) : Bool := s.boot.phase != .off

/-- FAULT_CONT_N is low. -/
def pinFaultCont (s : State) : Bool := powered s && (contPending s || s.faults.fatal)

/-- FAULT_FATAL_N is low. -/
def pinFaultFatal (s : State) : Bool := powered s && s.faults.fatal

/-- IRQ_ENABLE (R425): bit 0 completion, bit 1 fault, bit 2 notification. -/
def irqEnable (s : State) (i : Nat) : Bool := bitAt (obj s (key 0x2070 1)) i

/-- IRQ_FAULT_N is low. -/
def pinIrqFault (s : State) : Bool :=
  powered s && irqEnable s 1 && (s.faults.fatal || obj s ferCont != 0 || obj s ferCorr != 0)

/-- IRQ_CPL_N is low. -/
def pinIrqCpl (s : State) : Bool := powered s && irqEnable s 0 && decide (s.clock.tick < s.clock.cplEnd)

/-- IRQ_NOTE_N is low. -/
def pinIrqNote (s : State) : Bool := powered s && irqEnable s 2 && obj s (key 0x2050 5) != 0

end Sys2Proof.Machine
end

