-- ==== Sys2Proof/Machine/Ticks.lean ====
section
/-! DEFINITION. Time that passes when no command is waiting: plan ticks, the reference clock, the time base, the islands' 1 µs
windows. -/

namespace Sys2Proof.Machine

/-- R221: the plan tick is thirty times REF_CLK's rate. -/
def ticksPerRef : Nat := 30

/-- R323: a window is 100 REF_CLK cycles, 1 µs. -/
def ticksPerWindow : Nat := 3000

/-- R444: the time base advances by 10 ns at a REF_CLK edge, unless a synchronisation withholds the advance. -/
def timeEdge (c : Clock) : Clock :=
  if c.hold = 0 then { c with time := (c.time + 10) % 2 ^ 64 } else { c with hold := c.hold - 1 }

/-- One plan tick; every thirtieth is a REF_CLK edge. -/
def clockTick (c : Clock) : Clock :=
  if c.sub + 1 = ticksPerRef then timeEdge { c with tick := c.tick + 1, sub := 0, fresh := false }
  else { c with tick := c.tick + 1, sub := c.sub + 1 }

/-! ## Island clocks (R321, R323, R338, Table 13.1) -/

/-- Nominal clock and floor of an island, in MHz; the management island has no floor. -/
def islandClock (i : Nat) : Nat × Nat :=
  if i < 16 then (3300, 3000) else if i < 24 then (1650, 1500) else if i < 32 then (2000, 1800)
  else if i = 33 then (80, 80) else if i = 34 || i = 35 then (2000, 1800) else if i = 36 || i = 37 then (1650, 1500) else (400, 360)

/-- The average clock of the window that ends: nominal where no cycle was stretched, else a free value between floor and nominal; a
window with a breach cycle has its own command, BREACH_WINDOW_END (log 142). -/
def windowAverage (s : State) (i : Nat) : Nat :=
  let c := islandClock i
  if (getIsland s i).stretched then max c.2 (min c.1 (Config.windowMhz s.freeIdx).toNat) else c.1

/-- ISLAND_MHZ keeps the lowest average of the frame; it reads 0 until a window of the frame has ended. -/
def lowerMhz (i v : Nat) (s : State) : State :=
  let k := key 0x2020 (i + 1)
  setObj k (if obj s k = 0 then v else min (obj s k) v) s

/-- The end of a 1 µs window of one island; the clock of a window with a breach cycle has come with BREACH_WINDOW_END. -/
def endWindow (i : Nat) (s : State) : State :=
  let v := getIsland s i
  let s := if framesRun s && !v.breached then lowerMhz i (windowAverage s i) s else s
  { setIsland i { v with stretched := v.drooping, breached := false } s with freeIdx := s.freeIdx + 1 }

/-- The end of a 1 µs window of every island. -/
def endWindows (s : State) : State := forEach ((List.range 40).filter (islandExists s.hw)) endWindow s

/-- What a step does on an empty queue (log 6): with power present one plan tick passes; without, nothing does. -/
def tickStep (s : State) : State :=
  if s.boot.phase = .off then s
  else
    let t := { s with clock := clockTick s.clock }
    if t.clock.tick % ticksPerWindow = 0 then endWindows t else t

end Sys2Proof.Machine
end

