-- ==== Sys2Proof/Machine/Queue.lean ====
section
/-! DEFINITION. Inter-island queues (13): the word code of R331, packet headers, pushing and reading entries, watermarks. -/

namespace Sys2Proof.Machine

/-! ## The word code (R331) -/

/-- H_j: the (j + 1)-th smallest 7-bit value with at least two bits set. -/
def hTable : List Nat := (List.range 128).filter (fun v => 2 ≤ popcount 7 v)
def hOf (j : Nat) : Nat := nth 0 hTable j

/-- Check bits 0 to 6 of 64 data bits. -/
def checkBits (d : Nat) : Nat := (List.range 64).foldl (fun a j => if bitAt d j then Nat.xor a (hOf j) else a) 0

/-- A word with its check byte: data [63:0], check [71:64]. -/
def protect (d : Nat) : BitVec 72 :=
  let d := d % 2 ^ 64
  let c := checkBits d
  BitVec.ofNat 72 (d + c * 2 ^ 64 + (popcount 64 d + popcount 7 c) % 2 * 2 ^ 71)

/-- What reading a word finds. -/
inductive WordOut where
  | clean (d : Nat)
  | corrected (d : Nat)
  | bad (d : Nat)
  deriving DecidableEq, Repr

def WordOut.data : WordOut → Nat
  | .clean d => d
  | .corrected d => d
  | .bad d => d

def WordOut.isBad : WordOut → Bool
  | .bad _ => true
  | _ => false

def WordOut.isCorrected : WordOut → Bool
  | .corrected _ => true
  | _ => false

/-- R331: syndrome and parity of a received word. -/
def readWord (w : BitVec 72) : WordOut :=
  let d := fld w.toNat 0 64
  let s := Nat.xor (checkBits d) (fld w.toNat 64 7)
  let e := popcount 72 w.toNat % 2
  if e == 0 then (if s == 0 then .clean d else .bad d)
  else if s == 0 || (List.range 7).any (fun k => s == 2 ^ k) then .corrected d
  else if hTable.take 64 |>.contains s then .corrected (Nat.xor d (2 ^ hTable.findIdx (· == s)))
  else .bad d

/-! ## Classes (Table 13.2) and headers (Table 13.4) -/

/-- Words of an entry. -/
def entryWords (q : Nat) : Nat :=
  if q < 0x80 then 33 else if q < 0xA0 then 4 else if q < 0xB0 then 33 else 1

/-- The class of a queue, for its KIND code. -/
def queueClass (q : Nat) : Nat :=
  if q < 0xA0 then q / 32 else if q < 0xB0 then 5 else if q < 0xD8 then 6 else if q < 0x100 then 7 else q - 0xF8

/-- D entries (Table 13.2). -/
def queueDepth (q : Nat) : Nat :=
  if q < 0x20 then 64 else if q < 0x40 then 16 else if q < 0xB0 then 64 else if q < 0x100 then 32 else if q < 0x104 then 64 else 32

def queueFull (s : State) (q : Nat) : Bool := queueDepth q ≤ (getQueue s q).entries.length

/-- Words of a packet (Table 13.2): W words, or the entries of a class whose entries have one word. -/
def packetWords (q : Nat) : Nat :=
  if q < 0xB0 then entryWords q else if q < 0x100 then 4 else if q < 0x102 then 9 else if q < 0x104 then 1 else 2

/-- KIND of a class's packets: the codes are free values (log 14) and never 0x1D (R329). -/
def kindCode (q : Nat) : Nat :=
  let k := (Config.packetKind (queueClass q)).val
  if k < 0x1D then k else k + 1

/-- Table 13.2 puts dictionary replies and first-error records into one class: the KIND of a reply, a free value too (log 14). -/
def replyKind : Nat := let k := (Config.packetKind 0x80).val; if k < 0x1D then k else k + 1

/-- R333: a KIND of the class of queue q. -/
def kindKnown (q k : Nat) : Bool := k == kindCode q || (decide (0xD8 ≤ q) && decide (q < 0x100) && k == replyKind)

/-- Table 13.4: a header word of unit `src`; `field` are the class-specific bits. -/
def headerWord (q src field : Nat) : Nat :=
  put (kindCode q) 56 8 + put (packetWords q - 1) 48 8 + put src 36 12 + put field 0 36

/-- Class-specific bits whose layout the spec does not give, "sequence fields" (R329): a free value (log 14). -/
def freeField (s : State) : Nat := (Config.packetField s.freeIdx).toNat

/-- R330: what a consumer receives in every word position of a queue that holds no readable entry. -/
def idleWord : Nat := 0x1D1E000000000000

/-- The 32 queue words of a container. -/
def containerWords (b : Block) : List Nat := (List.range 32).map (fun k => fld b.toNat (64 * k) 64)

/-- A container of 32 words. -/
def wordsBlock (l : List Nat) : Block := BitVec.ofNat 2048 (packFields 64 l)

/-! ## Watermarks (R335) -/

/-- The XOFF state after a change of occupancy. -/
def xoffAfter (s : State) (q : QueueSt) : Bool :=
  if s.fcHigh ≤ q.entries.length then true else if q.entries.length ≤ s.fcLow then false else q.xoff

/-- Some read-response queue of fabric island k asserts. -/
def islandXoff (s : State) (k : Nat) : Bool := (List.range 4).any (fun j => (getQueue s (4 * k + j)).xoff)

/-- FC_XOFF_N[k] is low (R335); high from step 5 of a quiesce and in the fatal state (R369, R443). -/
def pinXoff (s : State) (k : Nat) : Bool := powered s && s.boot.phase != .quiesced && !s.faults.fatal && islandXoff s k

/-- Store a queue; a read-response queue re-evaluates its XOFF state, and a low-going edge of the pin is counted. -/
def putQueue (q : Nat) (v : QueueSt) (s : State) : State :=
  if q < 0x20 then
    let t := setQueue q { v with xoff := xoffAfter s v } s
    bumpIf (!pinXoff s (q / 4) && pinXoff t (q / 4)) (key 0x2031 (q / 4 + 1)) 1 t
  else setQueue q v s

/-- R326, R334: append an entry: a header word of unit `src` with class-specific bits `field`, then `body`; `slot` is remembered
beside it. A full queue leaves it with its producer, behind what that already holds. -/
def pushEntry (q src slot field : Nat) (body : List Nat) (s : State) : State :=
  let v := getQueue s q
  let e := (headerWord q src field :: body).map protect
  let s := if queueDepth q ≤ v.entries.length then putQueue q { v with waiting := v.waiting ++ [(e, slot)] } s
    else putQueue q { v with entries := v.entries ++ [e], slots := v.slots ++ [slot] } s
  { s with freeIdx := s.freeIdx + 1 }

/-- R332: the words of an entry as read, with the error patterns of the transfer applied. -/
def readEntry (e : List (BitVec 72)) (flips : List (BitVec 72)) : List WordOut :=
  e.zipIdx.map (fun p => readWord (p.1 ^^^ nth 0 flips p.2))

/-- The row after one is read. -/
def nextRow (q row : Nat) : Nat := (row + 1) % queueDepth q

/-- R334: the oldest entry leaves; the one its producer holds longest takes the place that becomes free. -/
def popEntry (q : Nat) (s : State) : State :=
  let v := getQueue s q
  let v := { v with entries := v.entries.drop 1, slots := v.slots.drop 1, head := nextRow q v.head }
  putQueue q (match v.waiting with
    | [] => v
    | w :: r => { v with entries := v.entries ++ [w.1], slots := v.slots ++ [w.2], waiting := r }) s

/-- R332: an uncorrectable word that makes its packet bad: a header, or any word of an entry that is no container word. -/
def packetBad (q : Nat) (ws : List WordOut) : Bool :=
  if entryWords q == 33 then (match ws with | h :: _ => h.isBad | [] => false) else ws.any WordOut.isBad

/-- R333: the header as read: its KIND is not the class's, its LEN is not the class's fixed length, or its pad slot is out of range.
`slot` is the pad slot where the packet names one (below 16,384). -/
def headerBad (q slot : Nat) (h : Nat) : Bool :=
  !kindKnown q (fld h 56 8) || fld h 48 8 != packetWords q - 1
  || ((decide (q < 0x20) || (decide (0x40 ≤ q) && decide (q < 0x60))) && decide (slot < 16384) && decide (16384 ≤ fld h 0 36))

/-- R333: the packet of an entry is bad. -/
def entryBad (q slot : Nat) (ws : List WordOut) : Bool :=
  packetBad q ws || (match ws with | h :: _ => headerBad q slot h.data | [] => false)

/-- QCORR, QUE and DISCARDS of a queue (Table 13.7). -/
def qObj (base q : Nat) : Nat := key (base + q / 128) (q % 128 + 1)

/-- R366, R368: the repair state of a bank of a source (its array's bank number). -/
def repairOf (s : State) (src bank : Nat) : BankRepair := tget { rows := [], sparesUsed := 0 } s.faults.repairs (src * 64 + bank)

/-- R354, R355: SYNDROME and DETAIL of a storage fault in a logical row of a bank. -/
def rowDetail (s : State) (src bank row : Nat) : Nat × Nat :=
  let n := tget 0 (repairOf s src bank).rows row
  (bank * 256 + row, bank * 65536 + (if n == 0 then row else (Config.spareRow s.freeIdx).toNat) * 256 + min n 255)

/-- A storage fault of a source in a row. -/
def raiseRow (src bank row : Nat) (cls : FaultClass) (s : State) : State :=
  let d := rowDetail s src bank row
  raise { source := BitVec.ofNat 12 src, cls := cls, access := 3, syndrome := BitVec.ofNat 16 d.1, detail := BitVec.ofNat 24 d.2 } s

/-- R367: a row is found failing. -/
def addFailing (src bank row : Nat) (s : State) : State :=
  let f : FailingRow := { source := src, bank := bank, row := row }
  if s.faults.failing.contains f then s else { s with faults := { s.faults with failing := s.faults.failing ++ [f] } }

/-- R332, R333, R367: count and report what a read of row `row` found; a row that yields an uncorrectable word is failing. -/
def countRead (q row : Nat) (ws : List WordOut) (bad : Bool) (s : State) : State :=
  let nc := (ws.filter WordOut.isCorrected).length
  let nb := (ws.filter WordOut.isBad).length
  let s := bump (qObj 0x2040 q) nc (bump (qObj 0x2044 q) nb s)
  let s := if nb == 0 then s else addFailing (0x700 + q) 0 row s
  let s := forEach (List.range nc) (fun _ => raiseRow (0x700 + q) 0 row .corrected) s
  let s := if packetBad q ws then raiseRow (0x700 + q) 0 row .contained s else s
  bumpIf bad (qObj 0x2048 q) 1 s

end Sys2Proof.Machine
end

