-- ==== Sys2Proof/Machine/Pad.lean ====
section
/-! DEFINITION. The pad buffer (R114 to R117), its decode on a lane's read, and the fabric requests of a cluster with their
access checks (R254). -/

namespace Sys2Proof.Machine

/-! ## Source identifiers of a cluster's units (Table 15.1) -/

def srcPad (c : Nat) : Nat := 0x400 + 8 * c
def srcDecoder (c : Nat) : Nat := 0x400 + 8 * c + 1
def srcGather (c : Nat) : Nat := 0x400 + 8 * c + 2
def srcFlick (c : Nat) : Nat := 0x400 + 8 * c + 3
def srcMerge (c : Nat) : Nat := 0x400 + 8 * c + 4
def srcPack (c : Nat) : Nat := 0x300 + c
def srcRead (c : Nat) : Nat := 0x500 + 2 * c
def srcWrite (c : Nat) : Nat := 0x500 + 2 * c + 1

/-! ## Slots -/

/-- R224: slot number k of a run that starts at `slot`. -/
def runSlot (slot k : Nat) : Nat := (slot + k) % 16384

/-- R114, R117: the slot's bank is fenced. -/
def slotFenced (c : Cluster) (slot : Nat) : Bool := bitAt c.padBanksFenced (slot % 64)

/-- What a slot holds. -/
def padSlot (c : Cluster) (slot : Nat) : PadSlot := tget .empty c.pad slot

/-- R117: an access to a fenced bank. -/
def fencedAccess (c : Nat) (s : State) : State := bump (key 0x2012 (c + 1)) 1 s

/-- Change a slot; a write to a fenced bank is discarded (R117). -/
def padModify (c slot : Nat) (f : PadSlot → PadSlot) (s : State) : State :=
  let cl := getCl s c
  if slotFenced cl slot then fencedAccess c s
  else setCl c { cl with pad := tmod .empty cl.pad slot f } s

/-- R55, R116: a fabric fill: the container, the tag, the fabric address of the fill. -/
def padFill (c slot : Nat) (b : Block) (tag : Bool) (addr : Nat) (s : State) : State :=
  padModify c slot (fun _ => { data := b, poison := tag, fill := some addr, pend := none, retracted := false }) s

/-- R55, R254, R344: the slot keeps its content and has its poison tag set. -/
def padTag (c slot : Nat) (s : State) : State := padModify c slot (fun p => { p with poison := true, retracted := false }) s

/-- R30, R327: a transfer into the slot is not complete: its read waits or is outstanding, or its entry is still in a queue. -/
def slotAwaited (c : Cluster) (slot : Nat) : Bool :=
  c.readWait.any (fun r => r.1.use == .pad slot) || c.reads.any (fun r => r.use == .pad slot)
  || c.arrived.any (fun r => r.req.use == .pad slot) || c.toPad.any (fun r => r.slot == slot)

/-- R30: a RECV in progress has still to claim the container of this slot of cluster c. -/
def recvAwaited (s : State) (c slot : Nat) : Bool :=
  (List.range (nPorts s.hw)).any (fun p => match (getSeq s (32 + p)).transfer with
    | some t =>
      let k := (slot + 16384 - t.slot % 16384) % 16384
      t.kind == 2 && !t.dead && physicalOf s t.cluster == c && decide (t.done ≤ k) && decide (k < t.total)
    | none => false)

/-- R30: the slot of cluster c waits for a container from the surroundings. -/
def slotPending (s : State) (c slot : Nat) : Bool := slotAwaited (getCl s c) slot || recvAwaited s c slot

/-- R30: the lanes of cluster c wait: a container whose E0 was planned before this tick has not come. -/
def lanesWait (s : State) (c : Nat) : Bool :=
  match (getCl s c).lane with
  | j :: _ => j.needs.any (fun e => decide (e.2 < s.clock.tick) && slotPending s c e.1)
  | [] => false

/-- R30, R327: some read of the cluster that a use selects is not complete. -/
def readAwaited (c : Cluster) (hit : ReadFor → Bool) : Bool :=
  c.readWait.any (fun r => hit r.1.use) || c.reads.any (fun r => hit r.use) || c.arrived.any (fun r => hit r.req.use)

/-- R30, R216: a block that a RESTORE of the tile requested has not been taken yet. -/
def restoring (c : Cluster) (uid : Nat) : Bool :=
  readAwaited c (fun u => match u with | .restore t _ => t == uid | _ => false)

/-- Entry x is one of the n scale entries from e0 on (R90: modulo 2,048). -/
def entryHit (e0 n x : Nat) : Bool := decide ((x + 2048 - e0 % 2048) % 2048 < n)

/-- R30, R105: a record that an SCREST requested for one of a tensor's scale entries has not been taken yet. -/
def entriesAwaited (c : Cluster) (d : Nat) : Bool :=
  let e0 := tdEntry0 d
  let n := tdNent d
  readAwaited c (fun u => match u with
    | .scale f0 m _ _ _ _ => decide (0 < n) && decide (0 < m) && (entryHit e0 n f0 || entryHit f0 m e0)
    | _ => false)

/-! ## A lane's read (R27, R55, R56, R64, R117) -/

/-- What a lane takes from one slot. -/
structure LaneRead where
  seen : Seen
  exp : Expanded
  pend : Option (Nat × Nat)
  deriving DecidableEq, Repr

/-- A container taken as poisoned with nothing to count. -/
def seenFenced : Seen :=
  { block := 0, poisoned := true, count := 0, fixed := 0, bad := false, detail := 0, poisonSeen := false, headerAnomaly := false,
    tenantFault := false, recheck := false, slotTag := false }

/-- Read slot `slot` of cluster c for an expansion of tensor `d` (format f), with its counters, reports and candidate. R54 gives a
record "the fabric address or pad offset": the fabric address where the slot's last fill was a fabric read, else the pad offset
(log 135). -/
def laneRead (c op d slot : Nat) (f : Fmt) (tr : Bool) (s : State) : LaneRead × State :=
  let cl := getCl s c
  if slotFenced cl slot then ({ seen := seenFenced, exp := expandPoisoned f, pend := none },
    flagPoison (curStream s c) (fencedAccess c s))
  else
    let p := padSlot cl slot
    let tenant := curTenant s c
    let v := inspect { slotTag := p.poison, expect := some (tdFormat d), tenant := tenantAsk s d tenant, atRest := true } p.data
    let e := if v.poisoned then expandPoisoned f else expandBlock f tr v.count v.block
    let s := countSeen (some c) v s
    let s := match p.fill with
      | some a => reportSeen (srcDecoder c) 1 a op (curStream s c) tenant v s
      | none => reportSeen (srcDecoder c) 2 (256 * slot) op (curStream s c) tenant v s
    let s := match p.fill with
      | some a => if v.bad then addCandidate a 2 s else s
      | none => s
    let s := countAnoms (some c) e.anoms s
    ({ seen := v, exp := e, pend := p.pend }, if v.poisoned then flagPoison (curStream s c) s else s)

/-- Read `n` consecutive slots. -/
def laneReads (c op d slot : Nat) (f : Fmt) (tr : Bool) : Nat → State → List LaneRead × State
  | 0, s => ([], s)
  | n + 1, s =>
    let r := laneRead c op d slot f tr s
    let t := laneReads c op d (runSlot slot 1) f tr n r.2
    (r.1 :: t.1, t.2)

/-- R281: sequence number a lies before b, modulo 65,536. -/
def seqBefore (a b : Nat) : Bool := let d := (b + 65536 - a % 65536) % 65536; d != 0 && d < 32768

/-- R283: the range holds sequence number x of port p. -/
def Range.holds (r : Range) (p x : Nat) : Bool :=
  r.port == p && (x + 65536 - r.lo) % 65536 ≤ (r.hi + 65536 - r.lo) % 65536

/-- R280: some container of these ranges is still unsettled. -/
def rangesOpen (s : State) (l : List Range) : Bool := l.any (fun r => (getPort s r.port).rxOpen.any (r.holds r.port))

/-- R283: the verdict ranges of the pending-tagged slots among these reads. -/
def addRange (r : Nat × Nat) : List Range → List Range
  | [] => [{ port := r.1, lo := r.2, hi := r.2 }]
  | x :: l =>
    if x.port == r.1 then
      { x with lo := if seqBefore r.2 x.lo then r.2 else x.lo, hi := if seqBefore x.hi r.2 then r.2 else x.hi } :: l
    else x :: addRange r l

/-- Two lists of ranges together: one range per port. -/
def mergeRanges (a b : List Range) : List Range := b.foldl (fun l r => addRange (r.port, r.hi) (addRange (r.port, r.lo) l)) a

def readsRanges (l : List LaneRead) : List Range :=
  l.foldl (fun a r => match r.pend with | some p => addRange p a | none => a) []

/-! ## Fabric requests (R254, R437) -/

/-- Table 10.3 for block k of tensor descriptor d; save areas and scale vectors move raw blocks. -/
def tensorAccess (s : State) (d k : Nat) (tenant : Option Nat) (read raw : Bool) : AccessOut :=
  checkAccess s { region := some (tdRgn d), addr := tdAddr d k, inside := k < tdLen d, tenant := tenant, read := read,
                  content := if raw then .raw else tdContent d }

/-- The counters and the report of a refused access of unit `src`. -/
def refuse (src op stream tenant addr : Nat) (v : AccessOut) (s : State) : State :=
  let s := countRefusal v stream s
  if v = .refused then
    raise { source := BitVec.ofNat 12 src, cls := .contained, access := 4, akind := 1, addr := BitVec.ofNat 48 addr,
            op := BitVec.ofNat 8 op, stream := BitVec.ofNat 10 stream, tenant := BitVec.ofNat 8 tenant } s
  else s

/-- R437: at most 512 reads of a cluster's port are outstanding. -/
def readLimit : Nat := 512

/-- A fabric read of cluster c: requested and outstanding until its response, or behind 512 outstanding ones waiting (R437). -/
def issueRead (c : Nat) (r : ReadReq) (word : Word) (s : State) : State :=
  if (getCl s c).reads.length < readLimit then
    emit (.fabricRead c word) (modCl c (fun cl => { cl with reads := cl.reads ++ [r] }) s)
  else modCl c (fun cl => { cl with readWait := cl.readWait ++ [(r, word)] }) s

/-- The read that has waited longest is requested when a place is free. -/
def nextRead (c : Nat) (s : State) : State :=
  match (getCl s c).readWait with
  | [] => s
  | r :: rest => issueRead c r.1 r.2 (modCl c (fun cl => { cl with readWait := rest }) s)

/-- R334: queue 0x020 + c has a free entry for another write. -/
def writeRoom (s : State) (c : Nat) : Nat := queueDepth (0x20 + c) - (getQueue s (0x20 + c)).entries.length

/-- R254, R326: a write of cluster c: refused, it is discarded and its part is complete; else it joins queue 0x020 + c, its header
naming fabric address [47:12]. -/
def sendWrite (c src op stream tenant d k : Nat) (data : Block) (isContainer : Bool) (r : OpRef) (s : State) : State :=
  match tensorAccess s d k (some tenant) false (!isContainer) with
  | .ok _ w =>
    let s := pushEntry (0x20 + c) src 0 (tdAddr d k / 4096) (containerWords data) s
    modCl c (fun cl => { cl with
      toWrite := cl.toWrite ++ [{ word := w, data := data, by_ := r, stream := stream, isContainer := isContainer }] }) s
  | v => opDone r 1 (refuse (srcWrite c) op stream tenant (tdAddr d k) v s)

end Sys2Proof.Machine
end

