-- ==== Sys2Proof/Machine/Merge.lean ====
section
/-! DEFINITION. The merge tree (08): tiles and the scoreboard, partials and their records, updates, far targets, poison. -/

namespace Sys2Proof.Machine

/-! ## Accumulator words (R200, R201) -/

/-- The poisoned accumulator. -/
def accPois : Word := 0x8000000000000000

/-- 2^63 - 1. -/
def accMax : Int := 2 ^ 63 - 1

/-- Table 8.4: a saturated word. -/
def accSat (a : Word) : Bool := a.toInt == accMax || a.toInt == -accMax

/-- R201: the new word of a read-modify-write. -/
def accUpdate (old : Word) (upd : Int) (updPoison updSat : Bool) : Word :=
  if old == accPois || updPoison then accPois
  else if accSat old then old
  else if updSat then BitVec.ofInt 64 upd
  else
    let s := old.toInt + upd
    if accMax ≤ s then BitVec.ofInt 64 accMax
    else if s ≤ -accMax then BitVec.ofInt 64 (-accMax)
    else BitVec.ofInt 64 s

/-- R201: the addition saturates (MT_SAT, tile SAT flag). -/
def accSaturates (old : Word) (upd : Int) (updPoison updSat : Bool) : Bool :=
  !(old == accPois || updPoison) && !accSat old && !updSat
  && (decide (accMax ≤ old.toInt + upd) || decide (old.toInt + upd ≤ -accMax))

/-! ## The scoreboard (R206, R207, R210) -/

/-- The accumulator index of row r, column k of a tile. -/
def Tile.index (t : Tile) (r k : Nat) : Nat := t.base + r * t.stride + k

/-- The accumulators of two tiles overlap. -/
def tilesOverlap (a b : Tile) : Bool :=
  (List.range a.rows).any (fun i => (List.range b.rows).any (fun j =>
    overlaps (a.base + i * a.stride) a.cols (b.base + j * b.stride) b.cols))

/-- The held tile of a uid. -/
def tileByUid (c : Cluster) (uid : Nat) : Option (Nat × Tile) := c.tiles.find? (fun e => e.2.uid == uid)

/-- R206: the TILE field names the most recently opened tile of that number that is still open. -/
def openTile (c : Cluster) (num : Nat) : Option (Nat × Tile) :=
  (c.tiles.filter (fun e => e.2.named && e.2.num == num)).foldl
    (fun b e => match b with | none => some e | some x => if x.2.uid < e.2.uid then some e else some x) none

/-- Change the held tile of a uid. -/
def modTile (c uid : Nat) (f : Tile → Tile) (s : State) : State :=
  modCl c (fun cl => { cl with tiles := cl.tiles.map (fun e => if e.2.uid == uid then (e.1, f e.2) else e) }) s

/-- R202, R211 to R213, R217: the tile is poisoned; what its drain has still to complete drains as poison, and what the pack unit has
completed stands as written. The accumulators of a container in progress drain together (log 186). -/
def Tile.hurt (t : Tile) : Tile :=
  { t with poison := true, toPack := t.toPack.map (fun p => { p with words := p.words.map (fun _ => accPois) }) }

def poisonTile (c uid : Nat) (s : State) : State := modTile c uid Tile.hurt s

/-- R283: a retraction poisons the tile and the containers that its drain has completed. -/
def Tile.retract (t : Tile) : Tile := { t.hurt with made := t.made.map (fun i => { i with block := markPoison i.block }) }

/-- The first scoreboard entry not held. -/
def freeEntry (c : Cluster) : Option Nat := (List.range 8).find? (fun k => !c.tiles.any (fun e => e.1 == k))

/-- R210: the tile must wait. -/
def mustWait (c : Cluster) (t : Tile) : Bool := c.tiles.any (fun e => tilesOverlap t e.2) || (freeEntry c).isNone

/-- A tile of a tile descriptor (Table 9.5). -/
def newTile (uid num d mode stream tenant : Nat) : Tile :=
  { uid := uid, num := num, named := true, base := tlBase d, rows := tlRows d, cols := tlCols d, stride := tlStride d,
    xt := tlXt d, stat := tlStat d, far := if mode == 2 then some (tlFar d) else none, keep := mode == 1, touched := 0,
    poison := false, sat := false, closed := none, ready := false, ranges := [],
    flickPasses := [], predicted := false, stream := stream, tenant := tenant, counts := [], fresh := 0, govA := none,
    aFormat := 0, toKeys := false, sparse := none, started := false, drained := [], made := [], toPack := [], drainDesc := 0 }

/-- R218, R206: PLAN_HAZARD; the stream's record reports HAZARD. -/
def planHazard (c stream : Nat) (s : State) : State := flagHazard stream (bump (key 0xA034 (c + 1)) 1 s)

/-- R206: a TOPEN on a number whose tile is still open abandons that tile: the entry goes, its deliveries feed nothing. -/
def abandonTile (c num stream : Nat) (s : State) : State :=
  match openTile (getCl s c) num with
  | none => s
  | some (k, t) =>
    let s := modCl c (fun cl => { cl with
      tiles := tdel cl.tiles k
      wrecs := cl.wrecs.map (fun w => if w.tile == t.uid then { w with tile := 0 } else w)
      updates := cl.updates.map (fun u => if u.tile == t.uid then { u with tile := 0 } else u) }) s
    flagPoison stream (planHazard c stream s)

/-- R448: both key rows of a cluster begin again. -/
def clearRows (cl : Cluster) : Cluster := { cl with key0 := .empty, key1 := .empty }

/-- R448: a TOPEN begins both key rows again, behind the expansions that the lanes have still to do (R30). -/
def resetRows (slot : Nat) (cl : Cluster) : Cluster :=
  if cl.lane.isEmpty then clearRows cl
  else { cl with lane := cl.lane ++ [{ work := .rows, op := 0x18, inSlot := slot, needs := [], late := false }] }

/-- Open a tile in the first free entry; both key rows' position counts become 0 (R448). -/
def placeTile (c : Nat) (t : Tile) (s : State) : State :=
  modCl c (fun cl => match freeEntry cl with
    | some k => resetRows (getSeq s c).slot { cl with tiles := tins cl.tiles k t, nextTile := cl.nextTile + 1 }
    | none => cl) s

/-! ## Expand-and-add words (R262 to R264) -/

/-- Table 15.1: ordering unit u. -/
def srcOrd (u : Nat) : Nat := 0x901 + u

/-- The addend and whether it is sent saturated (R263). -/
def addendOf (fp32 : Bool) (v x b : Int) : Nat × Bool :=
  if fp32 then (binary32 v x, false) else let a := addendI64 v x b; (twos 64 a.1, a.2)

/-- The lane of the next word (R265: up to 16 in one cycle): round robin. -/
def nextLane (l : List EaWord) : Nat := match l.getLast? with | some e => (e.lane + 1) % 16 | none => 0

/-- R262, R263: word w of target d gets v × 2^x; the ordering unit that serves the stack issues it. `r` has one part open. -/
def addWord (src op d w stream tenant : Nat) (v x : Int) (r : OpRef) (s : State) : State :=
  if v == 0 then opDone r 1 s
  else
    let fp := rgFmt (regionEntry s (tdRgn d)) == 0x42
    let addr := tdBase d + (if fp then 4 else 8) * w
    match checkAccess s { region := some (tdRgn d), addr := addr, inside := decide (addr < tdBase d + 256 * tdLen d),
                          tenant := some tenant, read := false, content := .add } with
    | .ok stack word =>
      let a := addendOf fp v x (tdB d)
      let u := stack % 2
      let out := if u = 0 then s.ord0.lanes else s.ord1.lanes
      let e : EaWord := { lane := nextLane out, word := word, value := BitVec.ofNat 64 a.1, by_ := r }
      let s := bump (key 0x3070 3) 1 (bumpIf a.2 (key 0x3070 4) 1 (if a.2 then flagSat stream s else s))
      emit (.expandAdd u e.lane word e.value)
        (if u = 0 then { s with ord0 := { lanes := out ++ [e] } } else { s with ord1 := { lanes := out ++ [e] } })
    | v' => opDone r 1 (refuse src op stream tenant addr v' s)

/-! ## Partials (R192 to R198, R204, R211, R212) -/

/-- Table 8.1. -/
def ptRow (w : Word) : Nat := fld w.toNat 60 4
def ptAgrp (w : Word) : Nat := fld w.toNat 57 3
def ptWgrp (w : Word) : Nat := fld w.toNat 52 5
def ptAseq (w : Word) : Nat := fld w.toNat 36 16
def ptWseq (w : Word) : Nat := fld w.toNat 20 16
def ptPoison (w : Word) : Bool := bitAt w.toNat 19
def ptValue (w : Word) : Int := sint 19 (fld w.toNat 0 19)

/-- The held weight record (WSEQ, WGRP). -/
def findW (c : Cluster) (seq grp : Nat) : Option (WDelivery × WGroup) :=
  match c.wrecs.find? (fun w => w.seq == seq) with
  | some w => (w.recs[grp]?).map (fun g => (w, g))
  | none => none

/-- The held activation record (ASEQ, AGRP). -/
def findA (c : Cluster) (seq grp : Nat) : Option ActScale :=
  match c.arecs.find? (fun a => a.seq == seq) with
  | some a => a.recs[grp]?
  | none => none

/-- R195: Q. -/
def productQ (v : Int) (w : WGroup) (a : ActScale) : Int := v * w.mant * a.mant

/-- R195: X. -/
def productX (w : WGroup) (a : ActScale) : Int := w.exp + a.exp + a.e - 14 - (if a.rot then 6 else 0)

/-- A product on its way to M4: its tile, accumulator index, value, whether poisoned, whether out of span. -/
structure Product where
  tile : Nat
  idx : Nat
  val : Int
  poison : Bool
  sat : Bool
  deriving DecidableEq, Repr

/-- R193, R194: a tag fault of cluster c's merge tree; a partial is the work of an XPW (R354, log 157). -/
def tagMiss (c : Nat) (s : State) : State :=
  bump (key 0xA037 (c + 1)) 1
    (raise { source := BitVec.ofNat 12 (srcMerge c), cls := .contained, access := 9,
             op := BitVec.ofNat 8 (workOp s c 0x11), stream := BitVec.ofNat 10 (curStream s c), tenant := BitVec.ofNat 8 (curTenant s c) } s)

/-- R212: a partial after drain-ready. -/
def latePartial (c : Nat) (s : State) : State :=
  bump (key 0xA038 (c + 1)) 1
    (raise { source := BitVec.ofNat 12 (srcMerge c), cls := .contained, access := 8,
             op := BitVec.ofNat 8 (workOp s c 0x11), stream := BitVec.ofNat 10 (curStream s c), tenant := BitVec.ofNat 8 (curTenant s c) } s)

/-- R196 to R198: a product in its tile, and what it counts. -/
def alignProduct (c : Nat) (t : Tile) (row : Nat) (poison : Bool) (v : Int) (w : WGroup) (a : ActScale) (s : State) :
    Option Product × State :=
  let q := productQ v w a
  let sh := productX w a - t.xt
  let out := q != 0 && (decide (sh < 0) || decide (16 < sh))
  let idx := t.index row w.col
  let s := bumpIf out (key 0xA033 (c + 1)) 1 s
  if poison then (some { tile := t.uid, idx := idx, val := 0, poison := true, sat := false }, s)
  else if out then
    (some { tile := t.uid, idx := idx, val := if q < 0 then -accMax else accMax, poison := false, sat := true },
     modTile c t.uid (fun x => { x with sat := true }) (bump (key 0xA032 (c + 1)) 1 s))
  else if q == 0 then (none, s)
  else (some { tile := t.uid, idx := idx, val := q * (2 ^ sh.toNat : Nat), poison := false, sat := false }, s)

/-- R181, R194: a partial of a verification: exact, in units of 2^-512, per row. Neither rule says what its POISON bit does there: the value is
summed as any other's (log 185). -/
def verifyPartial (c pass neuron row : Nat) (v : Int) (w : WGroup) (a : ActScale) (s : State) : State :=
  let term := productQ v w a * (2 ^ (productX w a + 512).toNat : Nat)
  modCl c (fun cl =>
    let has := cl.verify.any (fun x => x.pass == pass && x.neuron == neuron)
    let l := if has then cl.verify else cl.verify ++ [{ pass := pass, neuron := neuron, sums := [] }]
    { cl with verify := l.map (fun x =>
        if x.pass == pass && x.neuron == neuron then { x with sums := tmod 0 x.sums row (· + term) } else x) }) s

/-- One partial: its product, or none where it is discarded, adds nothing, or goes to a verification. -/
def onePartial (c : Nat) (p : Word) (s : State) : Option Product × State :=
  let cl := getCl s c
  let s := bump (key 0xA030 (c + 1)) 1 s
  match findW cl (ptWseq p) (ptWgrp p) with
  | none =>
    (none, tagMiss c (modCl c (fun x => { x with
      tiles := x.tiles.map (fun e => if e.2.ready then e else (e.1, { e.2 with poison := true })) }) s))
  | some (wd, wg) =>
    match findA cl (ptAseq p) (ptAgrp p) with
    | none => (none, tagMiss c (poisonTile c wd.tile s))
    | some a =>
      match wd.verify with
      | some v => (none, verifyPartial c v.1 v.2 (ptRow p) (ptValue p) wg a s)
      | none =>
        if wd.tile == 0 then (none, s)
        else
          match tileByUid cl wd.tile with
          | none => (none, latePartial c s)
          | some (_, t) =>
            if t.ready then (none, latePartial c (poisonTile c t.uid s))
            else if ptRow p ≥ t.rows || wg.col ≥ t.cols then (none, tagMiss c (poisonTile c t.uid s))
            else alignProduct c t (ptRow p) (ptPoison p) (ptValue p) wg a s

/-- The products of a cycle's partials, in return-port slot order. -/
def allPartials (c : Nat) : List Word → State → List Product × State
  | [], s => ([], s)
  | p :: r, s =>
    let a := onePartial c p s
    let b := allPartials c r a.2
    (match a.1 with | some x => x :: b.1 | none => b.1, b.2)

/-- R204: the update of one accumulator from its products. -/
def mergeProducts (l : List Product) : Product :=
  let h : Product := (l.head?).getD { tile := 0, idx := 0, val := 0, poison := false, sat := false }
  if l.any (·.poison) then { h with val := 0, poison := true, sat := false }
  else match l.find? (·.sat) with
    | some x => { h with val := x.val, poison := false, sat := true }
    | none => { h with val := isum (l.map (·.val)), poison := false, sat := false }

/-- M3, M4: products sorted by accumulator index and merged, one update per accumulator. -/
def mergeAll (l : List Product) : List Product :=
  let keys := (l.map (fun x => (x.idx, x.tile))).eraseDups
  let groups := keys.map (fun k => mergeProducts (l.filter (fun x => (x.idx, x.tile) == k)))
  groups.mergeSort (fun a b => decide (a.idx ≤ b.idx))

/-- R206: the row of an accumulator of the tile; the row stride of a tile of several rows is at least COLS. -/
def Tile.rowOf (t : Tile) (idx : Nat) : Nat := min ((idx - t.base) / t.stride) (t.rows - 1)

/-- The bit of an accumulator in its tile's bitmap of touched accumulators (R207): row by row, COLS to a row. -/
def touchBit (t : Tile) (idx : Nat) : Nat :=
  let r := t.rowOf idx
  2 ^ (r * t.cols + (idx - t.base - r * t.stride))

/-- R231, R265: one more part of the tile's PACK once it is closed, else an operation of its own. -/
def farRef (c : Nat) (t : Tile) (s : State) : OpRef × State :=
  match t.closed with
  | some r => (r.by_, opMore r.by_ 1 s)
  | none => (opNext c s, opOpen c 1 s)

/-- Word 3 of a far-target entry (Table 13.2): the exponent, and as its flag whether the value is saturated (log 137). -/
def farFlags (t : Tile) (p : Product) : Nat := put (twos 8 t.xt) 0 8 + put (b2n p.sat) 8 1

/-- R205, R264: one update of a far-target tile crosses queue 0x080 + c (header, word index, value, exponent and flags, Table 13.2)
towards the ordering units' hold (R284); a poison update sends no request. -/
def farUpdate (c : Nat) (t : Tile) (d : Nat) (p : Product) (s : State) : State :=
  if p.poison || t.poison then flagPoison t.stream (bump (key 0x3070 5) 1 s)
  else
    let s := bump (key 0xA031 (c + 1)) 1 s
    let r := farRef c t s
    let w := p.idx % 2 ^ 19 - t.base % 2 ^ 19
    let h : EaHold :=
      { queue := 0x80 + c, arrived := false, block := none, target := d, index := w, val := p.val, exp := t.xt,
        ranges := t.ranges, verdict := .confirmed, makers := [], by_ := r.1, stream := t.stream, tenant := t.tenant,
        cluster := c }
    let s := pushEntry (0x80 + c) (srcMerge c) d (freeField r.2) [w, twos 64 p.val, farFlags t p] r.2
    { s with eaHold := s.eaHold ++ [h] }

/-- M5: issue one update; `lane` is its update lane. -/
def issueUpdate (c lane : Nat) (p : Product) (s : State) : State :=
  match tileByUid (getCl s c) p.tile with
  | none => s
  | some (_, t) =>
    match t.far with
    | some d => farUpdate c t d p s
    | none =>
      let s := bump (key 0xA031 (c + 1)) 1 s
      let bit := touchBit t p.idx
      let first := !t.keep && t.touched / bit % 2 == 0
      let s := modTile c t.uid (fun x => { x with touched := if x.touched / bit % 2 == 0 then x.touched + bit else x.touched }) s
      if first then emit (.spadNew c lane p.idx (accUpdate 0 p.val p.poison p.sat)) s
      else
        emit (.spadUpdate c lane p.idx)
          (modCl c (fun cl => { cl with updates := cl.updates ++
            [{ lane := lane, idx := p.idx, tile := p.tile, val := p.val, poison := p.poison, sat := p.sat }] }) s)

/-- R206: the accumulator set of an index. -/
def accSet (idx : Nat) : Nat := idx / 2 ^ 19 % 2

/-- R209: the tile's drain reads set `x`: it is draining and a container of it is not complete. -/
def Tile.drainsSet (t : Tile) (x : Nat) : Bool := t.ready && t.far.isNone && accSet t.base == x && !t.toPack.isEmpty

/-- The drain of a tile loses one cycle: what it has not completed completes a tick later. -/
def Tile.delayed (t : Tile) : Tile := { t with toPack := t.toPack.map (fun p => { p with endTick := p.endTick + 1 }) }

/-- R209: the updates of a cycle use the sets `xs`; a tile that drains one of them loses the cycle, and HAZARD_CYCLES advances. -/
def drainConflict (c : Nat) (xs : List Nat) (s : State) : State :=
  let hit (t : Tile) : Bool := xs.any t.drainsSet
  if (getCl s c).tiles.any (fun e => hit e.2) then
    bump (key 0xA035 (c + 1)) 1
      (modCl c (fun cl => { cl with tiles := cl.tiles.map (fun e => if hit e.2 then (e.1, e.2.delayed) else e) }) s)
  else s

/-- The sets that these updates read and write in the scratchpad. -/
def updateSets (cl : Cluster) (l : List Product) : List Nat :=
  (l.filterMap (fun p => match tileByUid cl p.tile with
    | some (_, t) => if t.far.isSome then none else some (accSet p.idx)
    | none => none)).eraseDups

/-- R203, R204: the updates of a cycle. R203 and R438 name no lane for an accumulator: the model takes lanes 0, 1, … in accumulator order
(log 185). -/
def issueAll (c : Nat) (l : List Product) (s : State) : State :=
  forEach l.zipIdx (fun p s => issueUpdate c p.2 p.1 s) (drainConflict c (updateSets (getCl s c) l) s)

/-- PARTIAL_RESULT (R193): the partial words of one lane cycle. In the fatal state the merge tree drives no request (R369). -/
def execPartialResult (c : BitVec 5) (words : List Word) (s : State) : Host.Outcome State Fault Refusal :=
  guarded (c.toNat < nClusters s.hw) s fun s => whenS (!s.faults.fatal) s fun s =>
    let r := allPartials c.toNat words s
    issueAll c.toNat (mergeAll r.1) r.2

/-- SPAD_RMW_RETURN (R201, R438): the old word of the lane's oldest update; the new word is driven. -/
def execSpadRmwReturn (c : BitVec 5) (lane : BitVec 6) (old : Word) (s : State) : Host.Outcome State Fault Refusal :=
  guarded (c.toNat < nClusters s.hw) s fun s => whenS (!s.faults.fatal) s fun s =>
    let cl := getCl s c.toNat
    match cl.updates.find? (fun u => u.lane == lane.toNat) with
    | none => s
    | some u =>
      let s := setCl c.toNat { cl with updates := cl.updates.erase u } s
      let s := emit (.spadNew c.toNat lane.toNat u.idx (accUpdate old u.val u.poison u.sat)) s
      if accSaturates old u.val u.poison u.sat then
        modTile c.toNat u.tile (fun t => { t with sat := true }) (bump (key 0xA032 (c.toNat + 1)) 1 s)
      else s

/-- R128, R211: the held tiles fed by the named deliveries are poisoned; the notice is counted once. -/
def latePoison (c : Nat) (weightPort : Bool) (seqs : List Nat) (s : State) : State :=
  let cl := getCl s c
  let uids := if weightPort then (cl.wrecs.filter (fun w => seqs.contains w.seq)).map (·.tile)
              else (cl.arecs.filter (fun a => seqs.contains a.seq)).map (·.tile)
  bump (key 0xA036 (c + 1)) 1 (forEach uids.eraseDups (fun u s => poisonTile c u s) s)

/-- LATE_POISON_NOTICE (R211). -/
def execLatePoisonNotice (c : BitVec 5) (lane : BitVec 5) (weightPort : Bool) (seqs : List (BitVec 16)) (s : State) :
    Host.Outcome State Fault Refusal :=
  guarded (c.toNat < nClusters s.hw && lane.toNat < 17) s (latePoison c.toNat weightPort (seqs.map (·.toNat)))

end Sys2Proof.Machine
end

