-- ==== Sys2Proof/Machine/Sparse.lean ====
section
/-! DEFINITION. Sparse operands (06): window keys, matching and compaction, the choice of path, pruning and the transposable
masks. -/

namespace Sys2Proof.Machine

/-! ## Keys (R141 to R144) -/

/-- R142, R143: the sixteen entries of an AS24 group with V valid positions. -/
def as24Entries (zero : Bool) (v : Nat) (grp : List Nat) : List KeyEntry :=
  (List.range 8).flatMap (fun q =>
    let c := as24Quad grp q
    let p := if zero then 0 else c.1
    if p < 6 then
      let a := 4 * q + pairA p
      let b := 4 * q + pairB p
      [ { pos := a, val := if zero then 0 else int8Of c.2.1, valid := a < v },
        { pos := b, val := if zero then 0 else int8Of c.2.2, valid := b < v } ]
    else [{ pos := 4 * q, val := 0, valid := false }, { pos := 4 * q + 1, val := 0, valid := false }])

/-- R142, R143: an AK group's entries in stored order; duplicates and indices at or above V are invalid. -/
def akEntries (v : Nat) : List (Nat × Nat) → List Nat → List (Nat × KeyEntry)
  | [], _ => []
  | e :: r, seen =>
    let ok := decide (e.1 < v) && !seen.contains e.1
    (e.1 / 32, { pos := e.1 % 32, val := int8Of e.2, valid := ok }) :: akEntries v r (if ok then e.1 :: seen else seen)

/-- The window keys of a container, one list of entries per window of 32 positions; none where the operand supplies no key. -/
def windowKeys (f : Fmt) (count : Nat) (b : Block) : List (List KeyEntry) :=
  let zero := hZeroChan b
  let grps := (chunksOf f.bytes f.groups (payloadOf b)).zipIdx
  let valid (g : Nat) := min f.group (count - f.group * g)
  if f.code == 0x12 then grps.map (fun p => as24Entries zero (valid p.2) p.1)
  else if (f.code == 0x13 || f.code == 0x14) && !hRotated b then
    grps.flatMap (fun p =>
      let es := if zero then [] else akEntries (valid p.2) (akRaw (if f.code == 0x13 then 16 else 8) p.1) []
      [(es.filter (fun e => e.1 == 0)).map (·.2), (es.filter (fun e => e.1 == 1)).map (·.2)])
  else List.replicate (f.cap / 32) []

/-- Table 6.1: the operand supplies a key. -/
def hasKey (fmt : Nat) (rotated : Bool) : Bool := fmt == 0x12 || ((fmt == 0x13 || fmt == 0x14) && !rotated)

/-- A loaded window of a row. -/
def windowAt (r : KeyRow) (w : Nat) : Option KeyWindow := (r.windows.find? (fun e => e.1 == w)).map (·.2)

/-- R144: load a container's windows at position `pos` of the row; keys at 4,096 or beyond are not stored, and the row is over length. A
container without a key (Table 6.1) stores nothing. -/
def loadWindows (pos : Nat) (keyed : Bool) (ws : List KeyWindow) (r : KeyRow) : KeyRow :=
  let first := pos / 32
  if keyed then
    { r with
      overLength := r.overLength || decide (128 < first + ws.length)
      windows := (ws.zipIdx).foldl (fun t p => if first + p.2 < 128 then tins t (first + p.2) p.1 else t) r.windows }
  else { r with keyless := true }

/-! ## Matching and compaction (R145 to R149) -/

/-- One window of a compacted group: slots for the weights and the activations (16 each), and the lookups made. A window without a
valid entry is not searched (R145 step 1), an AS24 window too, of which R154 says that it is searched (log 138). -/
def matchWindow (trits : List Int) (w : Option KeyWindow) : List Int × List Int × Nat :=
  match w with
  | none => (List.replicate 16 0, List.replicate 16 0, 0)
  | some k =>
    let acts := (List.range 16).map (fun e => match k.entries[e]? with | some x => if x.valid then x.val else 0 | none => 0)
    if k.entries.any (fun x => x.valid) then
      ((List.range 16).map (fun e => match k.entries[e]? with | some x => if x.valid then nth 0 trits x.pos else 0 | none => 0),
       acts, (trits.filter (· != 0)).length)
    else (List.replicate 16 0, acts, 0)

/-- R145: the port-cycles of matching a weight group against one row: ⌈n ÷ 16⌉ for each window searched. -/
def matchCost (r : KeyRow) (w0 : Nat) (trits : List Int) : Nat :=
  nsum ((List.range (trits.length / 32)).map (fun j =>
    ceilDiv (matchWindow ((trits.drop (32 * j)).take 32) (windowAt r (w0 + j))).2.2 16))

/-- A compacted group, or one part of a split one: its weight slots, activation slots, the scale of its activations, and whether a
task that loaded its windows poisons it. -/
structure Compacted where
  weights : List Int
  acts : List Int
  scale : ActScale
  poison : Bool
  deriving DecidableEq, Repr

/-- The scale record of a zero-filled place (R126). -/
def zeroScale : ActScale := { perToken := true, mant := 0, e := 0, exp := 0, rot := false, source := 0 }

/-- R145 to R149: the compacted groups of one weight group against one row; windows `w0` on. Also lookups made and whether the
group was split. -/
def compactGroup (r : KeyRow) (w0 : Nat) (trits : List Int) : List Compacted × Nat × Bool :=
  let nwin := trits.length / 32
  let wins := (List.range nwin).map (fun j => (windowAt r (w0 + j), matchWindow ((trits.drop (32 * j)).take 32) (windowAt r (w0 + j))))
  let size := if nwin == 1 then 2 else nwin
  let pad (l : List Int) : List Int := l ++ List.replicate (16 * size - l.length) 0
  let looks := nsum (wins.map (fun w => w.2.2.2))
  let bad (w : Option KeyWindow) : Bool := match w with | some k => k.poison | none => false
  let srcs := (wins.filterMap (fun w => w.1.map (fun k => k.scale.source))).eraseDups
  if srcs.length ≤ 1 then
    let sc := ((wins.filterMap (fun w => w.1.map (fun k => k.scale))).head?).getD zeroScale
    ([{ weights := pad (wins.flatMap (fun w => w.2.1)), acts := pad (wins.flatMap (fun w => w.2.2.1)), scale := sc
        poison := wins.any (fun w => bad w.1) }], looks, false)
  else
    (wins.zipIdx.map (fun p =>
      { weights := pad (List.replicate (16 * p.2) 0 ++ p.1.2.1), acts := pad (List.replicate (16 * p.2) 0 ++ p.1.2.2.1)
        scale := (p.1.1.map (fun k => k.scale)).getD zeroScale, poison := bad p.1.1 }), looks, true)

/-! ## The path of a tile (R132, R151, Table 6.3) -/

inductive Path where
  | dense | structured | keyed | keyless
  deriving DecidableEq, Repr

/-- The break-even density of a format, from the six values of Table 5.5. -/
def breakEvenOf (be : List Nat) (fmt : Nat) : Option Nat :=
  match fmt with
  | 0x06 => be[0]? | 0x07 => be[1]? | 0x08 => be[2]? | 0x09 => be[3]? | 0x13 => be[4]? | 0x14 => be[5]?
  | _ => none

/-- An operand with governing density `g` selects the sparse path (R132). -/
def selectsSparse (be : List Nat) (fmt : Nat) (g : Option Nat) : Bool :=
  match g, breakEvenOf be fmt with
  | some d, some b => d ≤ b
  | _, _ => false

/-- R151: PATH as the plan names it, whether R132 selects the sparse path for the tile, and whether the operand has a key. -/
def choosePath (path : Nat) (sparse keyed : Bool) : Path :=
  if path == 1 then .structured
  else if path == 2 && sparse then (if keyed then .keyed else .keyless)
  else .dense

/-! ## Stealing around the ring (R155, R156, R158 to R161) -/

/-- R155: match-unit cycles of a task of `ports` port-cycles. -/
def taskCycles (ports : Nat) : Nat := if ports ≤ 4 then 1 else 2

/-- A match task: its number in the expansion, its cycles, whether it was stolen. -/
structure MatchTask where
  id : Nat
  cycles : Nat
  stolen : Bool
  deriving DecidableEq, Repr

/-- A match unit: cycles left of the task in progress, its unstarted tasks, whether its tasks may be stolen: not while the fencing of its
lane is in progress (R161). -/
structure MatchUnit where
  busy : Nat
  queue : List MatchTask
  open_ : Bool
  deriving DecidableEq, Repr

/-- A unit that is free starts its first task; a cycle of the task in progress passes. -/
def MatchUnit.run (u : MatchUnit) : MatchUnit :=
  match u.busy, u.queue with
  | 0, [] => u
  | 0, t :: r => { u with busy := t.cycles - 1, queue := r }
  | n + 1, _ => { u with busy := n }

/-- R158: the unit holds no task in progress and no unstarted task. -/
def MatchUnit.idle (u : MatchUnit) : Bool := u.busy == 0 && u.queue.isEmpty

/-- R158, R161: the last unstarted task, where it may be taken. -/
def MatchUnit.spare (u : MatchUnit) : Option MatchTask :=
  if u.open_ && decide (2 ≤ u.queue.length) then
    (match u.queue.getLast? with | some t => if t.stolen then none else some t | none => none)
  else none

/-- R158: at the end of a cycle each idle unit takes a task of its successor; also the tasks taken, each with whether the fencing of its
new lane is in progress. -/
def stealOnce (us : List MatchUnit) : List MatchUnit × List (Nat × Bool) :=
  let n := us.length
  let unit (i : Nat) : MatchUnit := nth { busy := 0, queue := [], open_ := false } us (i % n)
  let takes (i : Nat) : Option MatchTask := if (unit i).idle then (unit (i + 1)).spare else none
  ((List.range n).map (fun i =>
     let u := unit i
     let u := if (takes (i + n - 1)).isSome then { u with queue := u.queue.dropLast } else u
     match takes i with | some t => { u with queue := u.queue ++ [{ t with stolen := true }] } | none => u),
   (List.range n).filterMap (fun i => (takes i).map (fun t => (t.id, !(unit i).open_))))

/-- R156: the queues of 8 can take a container's tasks. -/
def queuesTake (us : List MatchUnit) (ts : List (Nat × MatchTask)) : Bool :=
  us.zipIdx.all (fun u => u.1.queue.length + (ts.filter (fun t => t.1 == u.2)).length ≤ 8)

/-- A container's tasks, each with its unit, join their units' queues. -/
def giveTasks (us : List MatchUnit) (ts : List (Nat × MatchTask)) : List MatchUnit :=
  us.zipIdx.map (fun u => { u.1 with queue := u.1.queue ++ (ts.filter (fun t => t.1 == u.2)).map (·.2) })

/-- R156, R158: the tasks taken while these containers are matched, as `stealOnce` gives them; each container's tasks arrive together, in
the first cycle in which the queues can take them (log 12). -/
def stealsIn : Nat → List (List (Nat × MatchTask)) → List MatchUnit → List (Nat × Bool)
  | 0, _, _ => []
  | fuel + 1, cs, us =>
    let arrive := match cs with | c :: r => if queuesTake us c then (giveTasks us c, r) else (us, cs) | [] => (us, [])
    let k := stealOnce (arrive.1.map MatchUnit.run)
    if arrive.2.isEmpty && k.1.all MatchUnit.idle then k.2 else k.2 ++ stealsIn fuel arrive.2 k.1

/-! ## Pruning (R162, R163) -/

/-- The indices of the `n` largest magnitudes, the lower index first among equals. -/
def keepLargest (n : Nat) (mags : List Nat) : List Nat :=
  let idx := mags.zipIdx
  ((idx.filter (fun p => (idx.filter (fun o => o.1 > p.1 || (o.1 == p.1 && o.2 < p.2))).length < n)).map (·.2))

/-- Table 6.7: the 90 transposable masks p0 p1 p2 p3, in ascending order. -/
def tmasks : List (List Nat) :=
  ((List.range 1296).map (fun n => [n / 216 % 6, n / 36 % 6, n / 6 % 6, n % 6])).filter (fun m =>
    (List.range 4).all (fun c => (m.filter (fun p => pairA p == c || pairB p == c)).length == 2))

/-- The cells (row-major) that a mask keeps. -/
def maskKeeps (m : List Nat) (cell : Nat) : Bool :=
  let p := nth 0 m (cell / 4)
  pairA p == cell % 4 || pairB p == cell % 4

/-- R165: the mask of largest kept magnitude with the lowest number, and whether another mask ties with it. -/
def chooseMask (mags : List Nat) : List Nat × Bool :=
  let scored := tmasks.map (fun m => (nsum (mags.zipIdx.map (fun p => if maskKeeps m p.2 then p.1 else 0)), m))
  let best := scored.foldl (fun a b => max a b.1) 0
  let top := scored.filter (fun x => x.1 == best)
  ((top.head?.map (·.2)).getD [], decide (1 < top.length))

/-- R163: whether the pack unit keeps position i of a weight group, by its format, and the blocks decided by the tie rule. -/
def weightKeeps (fmt : Nat) (mags : List Nat) : (Nat → Bool) × Nat :=
  match fmt with
  | 0x04 =>
    let kept := (chunksOf 4 16 mags).zipIdx.flatMap (fun p => (keepLargest 2 p.1).map (· + 4 * p.2))
    (fun i => kept.contains i, 0)
  | 0x05 =>
    let ms := (chunksOf 16 4 mags).map chooseMask
    (fun i => maskKeeps ((nth ([], false) ms (i / 16)).1) (i % 16), (ms.filter (·.2)).length)
  | 0x06 => let kept := keepLargest 8 mags; (fun i => kept.contains i, 0)
  | 0x07 => let kept := keepLargest 16 mags; (fun i => kept.contains i, 0)
  | 0x08 => let kept := keepLargest 24 mags; (fun i => kept.contains i, 0)
  | 0x09 => let kept := keepLargest 32 mags; (fun i => kept.contains i, 0)
  | _ => (fun _ => true, 0)

end Sys2Proof.Machine
end

