-- ==== Sys2Proof/Machine/Expand.lean ====
section
/-! DEFINITION. Expansion (05, 06): deliveries on the array ports with their scale records and poison, the dense, structured and
sparse paths, key loading, the weight digest. -/

namespace Sys2Proof.Machine

/-! ## Lanes (R118, R127, R128) -/

/-- The physical lane that serves a lane position. -/
def physicalLane (c : Cluster) (p : Nat) : Nat := if c.spareFor == some p then 16 else p

/-- R125: some task slot of these ran on a lane whose fencing is in progress. -/
def lanePoison (c : Cluster) (slots : List Nat) : Bool := slots.any (fun p => c.poisonLanes.contains (physicalLane c (p % 16)))

/-- The lane tasks of 64 weight positions that positions `p` to `p + n - 1` of an expansion touch. -/
def taskRange (p n per : Nat) : List Nat := (List.range ((p + n - 1) / per + 1 - p / per)).map (fun i => p / per + i)

/-! ## Weight deliveries (R122, R123, R125, R126) -/

/-- One weight group, or compacted group, on its way into a delivery. -/
structure WPiece where
  vals : List Int
  scale : WGroup
  poison : Bool
  deriving DecidableEq, Repr

/-- R125: the group-size code. -/
def groupCode (size : Nat) : Nat := if size == 32 then 0 else if size == 64 then 1 else 2

/-- R193: the 64 newest weight deliveries. -/
def keepNewest {α : Type} (n : Nat) (l : List α) : List α := l.drop (l.length - n)

/-- One delivery of `size`-position groups, filled with zero groups of column `col0` to 1,024 positions. -/
def deliverW (c size col0 tile : Nat) (verify : Option (Nat × Nat)) (l : List WPiece) (s : State) : State :=
  let cl := getCl s c
  let vals := l.flatMap (·.vals)
  let fill := List.replicate (1024 / size - l.length) ({ mant := 0, exp := 0, col := col0 } : WGroup)
  let poison := l.any (·.poison)
  let at_ (k : Nat) : Int := nth 0 vals k
  let out := Out.weight c (groupCode size) cl.wseq poison
    (BitVec.ofNat 1024 (maskOf 1024 (fun k => at_ k != 0))) (BitVec.ofNat 1024 (maskOf 1024 (fun k => at_ k < 0)))
  let d : WDelivery := { seq := cl.wseq, tile := tile, verify := verify, recs := l.map (·.scale) ++ fill }
  bump (key 0xA000 1) 1
    (emit out (setCl c { cl with wseq := (cl.wseq + 1) % 65536, wrecs := keepNewest 64 (cl.wrecs ++ [d]) } s))

/-- The deliveries of an expansion, in order. -/
def deliverAllW (c size col0 tile : Nat) (verify : Option (Nat × Nat)) (l : List WPiece) (s : State) : State :=
  let per := 1024 / size
  forEach (chunksOf per (l.length / per + 1) l) (deliverW c size col0 tile verify) s

/-! ## Activation deliveries (R122, R124 to R126) -/

/-- One activation delivery. -/
def deliverA (c size tile : Nat) (l : List APiece) (s : State) : State :=
  let cl := getCl s c
  let fill := List.replicate (256 / size - l.length) zeroScale
  let data := packFields 12 ((l.flatMap (·.vals)).map (twos 12))
  let d : ADelivery := { seq := cl.aseq, tile := tile, recs := l.map (·.scale) ++ fill }
  bump (key 0xA000 2) 1
    (emit (.activation c cl.aseq (l.any (·.poison)) (BitVec.ofNat 3072 data))
      (setCl c { cl with aseq := (cl.aseq + 1) % 65536, arecs := keepNewest 512 (cl.arecs ++ [d]) } s))

def deliverAllA (c size tile : Nat) (l : List APiece) (s : State) : State :=
  let per := 256 / size
  forEach (chunksOf per (l.length / per + 1) l) (deliverA c size tile) s

/-- A tile is fed by a gated instruction of the pass of this uid. -/
def Tile.fedBy (p : Option Nat) (t : Tile) : Tile :=
  match p with
  | some p => if t.flickPasses.contains p then t else { t with flickPasses := p :: t.flickPasses }
  | none => t

/-- R208, R283: a tile fed by a delivery: the ranges of the slots, a gated instruction's pass. -/
def feedTile (c uid : Nat) (ranges : List Range) (pass : Option Nat) (predicted : Bool) (s : State) : State :=
  modTile c uid (fun t => { t.fedBy pass with ranges := mergeRanges t.ranges ranges, predicted := t.predicted || predicted }) s

/-! ## The weight digest (R136, R137) -/

/-- R136: h(k). -/
def digHash (k : Nat) : Nat :=
  let z := k * 0x9E3779B97F4A7C15 % 2 ^ 64
  let z := Nat.xor z (z / 2 ^ 29)
  let z := z * 0xBF58476D1CE4E5B9 % 2 ^ 64
  Nat.xor z (z / 2 ^ 32)

/-- The sum of h over a container's non-zero weights with non-zero mantissa; `base` is the position of element 0. -/
def digSum (base group : Nat) (vals : List Int) (mants : List Nat) : Nat :=
  vals.zipIdx.foldl (fun a p =>
    let m := nth 0 mants (p.2 / group)
    if p.1 == 0 || m == 0 then a
    else (a + digHash (((base + p.2) % 2 ^ 40) * 1024 + m * 4 + (if p.1 > 0 then 1 else 2))) % 2 ^ 64) 0

/-- R136, R137: fold the containers of a marked expansion into digest slot `ds` from container ordinal `ord` on. In a transposed read the
element index is the one in the delivered order: R136 does not say which (log 172). -/
def foldDigest (c ds ord tseq : Nat) (f : Fmt) (l : List LaneRead) (s : State) : State :=
  let s := { s with plan := { s.plan with digestTensor := tset none s.plan.digestTensor ds (some tseq) } }
  forEach l.zipIdx (fun p s => modCl c (fun cl =>
    if p.1.seen.poisoned then { cl with digestMissed := tmod 0 cl.digestMissed ds (· + 1) }
    else { cl with digest := tmod 0 cl.digest ds (fun a =>
      (a + digSum ((ord + p.2) * f.cap) f.group p.1.exp.vals p.1.exp.mants) % 2 ^ 64) }) s) s

/-! ## Weight expansion (XPW) -/

/-- The weight groups of an expansion in order: group number, container poison, trits, mantissa and EXP. -/
structure WIn where
  k : Nat
  poison : Bool
  vals : List Int
  mant : Nat
  exp : Int
  deriving DecidableEq, Repr

def weightGroups (f : Fmt) (l : List LaneRead) : List WIn :=
  l.zipIdx.flatMap (fun p =>
    (chunksOf f.group f.groups p.1.exp.vals).zipIdx.map (fun g =>
      { k := p.2 * f.groups + g.2, poison := p.1.seen.poisoned, vals := g.1, mant := nth 0 p.1.exp.mants g.2,
        exp := hExp p.1.seen.block }))

/-- R225: the column that weight group k feeds. -/
def groupCol (col0 gpo k : Nat) : Nat := col0 + k / max 1 gpo

/-- The dense path's groups. -/
def densePieces (cl : Cluster) (col0 gpo group : Nat) (l : List WIn) : List WPiece :=
  l.map (fun g => { vals := g.vals, scale := { mant := g.mant, exp := g.exp, col := groupCol col0 gpo g.k },
                    poison := g.poison || lanePoison cl (taskRange (g.k * group) group 64) })

/-- R144: a row that poisons every compacted group it forms. -/
def KeyRow.bad (r : KeyRow) : Bool := r.poison || r.overLength

/-- R155: the number of the match task of weight group k against row i of `rows` rows: WT5-32 takes two groups to a task. -/
def taskId (group rows k i : Nat) : Nat := k / (if group == 32 then 2 else 1) * rows + i

/-- One weight group compacted against the rows: pieces, lookups, groups split. `lost`: the tasks that ran on a lane whose fencing is in
progress (R161). -/
def compactOne (cl : Cluster) (col0 gpo group : Nat) (rows : List KeyRow) (lost : List Nat) (g : WIn) : List WPiece × Nat × Nat :=
  let outs := rows.map (fun r => (r, compactGroup r (g.k % max 1 gpo * group / 32) g.vals))
  (outs.zipIdx.flatMap (fun o => o.1.2.1.map (fun p =>
    { vals := p.weights, scale := { mant := g.mant, exp := g.exp, col := groupCol col0 gpo g.k },
      poison := g.poison || o.1.1.bad || p.poison || lanePoison cl (taskRange (g.k * group) group 64)
        || lost.contains (taskId group rows.length g.k o.2) })),
   nsum (outs.map (fun o => o.2.2.1)), (outs.filter (fun o => o.2.2.2)).length)

/-- R148: the compacted activation groups of the reduction, in span order and within each span in row order. A span of 64
positions holds two groups of a 32-weight format. -/
def compactActs (gpo group : Nat) (rows : List KeyRow) (n : Nat) : List APiece :=
  let per := max 1 (64 / group)
  let groups := List.range (min (max 1 gpo) n)
  (chunksOf per (groups.length / per + 1) groups).flatMap (fun span => rows.flatMap (fun r => span.flatMap (fun j =>
    (compactGroup r (j * group / 32) (List.replicate group 0)).1.map (fun p =>
      { vals := p.acts, scale := p.scale, poison := r.bad || p.poison }))))

/-- R151, R152: the activation groups of a key row as the dense path delivers them: each XPA's deliveries in order. A delivery carries the
poison of its own containers (R125): what R144 says of a bad row is of its compacted groups. -/
def denseActs (c tile : Nat) (r : KeyRow) (s : State) : State := forEach r.runs (fun x s => deliverAllA c x.size tile x.pieces s) s

/-- R146: the slots of a compacted group. -/
def compactSize (group : Nat) : Nat := if group == 128 then 64 else 32

/-- The counters of Tables 5.6 and 6.9 for one weight expansion of a tile. -/
def countPath (wf af : Nat) (p : Path) (s : State) : State :=
  let listed := (breakEvenOf s.plan.cfg.breakEven wf).isSome || (breakEvenOf s.plan.cfg.breakEven af).isSome
  match p with
  | .structured => bump (key 0x5010 3) 1 s
  | .keyed => bump (key 0x5010 1) 1 s
  | .keyless => bump (key 0x5010 4) 1 (bump (key 0x5010 1) 1 s)
  | .dense => bumpIf listed (key 0x5010 2) 1 s

/-- The ring of the cluster's match units in lane-position order: 16, or the 15 working ones in stretched mode (R157, R161). -/
def matchRing (cl : Cluster) : List MatchUnit :=
  let fenced (p : Nat) : Bool := cl.stretched && bitAt cl.lanesFenced p && cl.spareFor != some p
  ((List.range 16).filter (fun p => !fenced p)).map (fun p =>
    { busy := 0, queue := [], open_ := !cl.poisonLanes.contains (physicalLane cl p) })

/-- R155: the match tasks of one container, each with its unit: one for each row and extent of weight groups, queued at the unit of the
lane that decoded it, for a group of 128 weights that of its first half, which R158 leaves open (log 176). In stretched mode the lanes
take tasks from one shared queue (R129), and no rule says which lane decodes which: the model takes the task's number modulo 15 (log 185). -/
def matchTasks (units gpo group : Nat) (rows : List KeyRow) (gs : List WIn) : List (Nat × MatchTask) :=
  let per := if group == 32 then 2 else 1
  (chunksOf per (gs.length / per + 1) gs).flatMap (fun ext =>
    match ext with
    | [] => []
    | g :: _ => rows.zipIdx.map (fun r =>
      ((g.k * group / 64) % units,
       { id := taskId group rows.length g.k r.2, stolen := false
         cycles := taskCycles (nsum (ext.map (fun x => matchCost r.1 (x.k % max 1 gpo * group / 32) x.vals))) })))

/-- R158, R161: the tasks taken in a keyed expansion, each with whether its new lane is being fenced. `per` is the number of weight groups
of a container. -/
def keyedSteals (cl : Cluster) (gpo group per : Nat) (rows : List KeyRow) (gs : List WIn) : List (Nat × Bool) :=
  let ring := matchRing cl
  let cs := (chunksOf (max 1 per) (gs.length / max 1 per + 1) gs).map (matchTasks ring.length gpo group rows)
  stealsIn (4 * gs.length * rows.length + cs.length + 1) cs ring

/-- R448: a weight expansion of the tile makes every row, key row and activation operand of it stale. -/
def staleAll : Nat := 2 ^ 19 - 1

/-- The deliveries of a weight expansion on the path it takes. The dense and keyless paths expand the containers once for each row
(Table 6.3): `again` is the second expansion's read of them (R83). -/
def deliverPath (again : State → State) (j : XpwJob) (f : Fmt) (p : Path) (uid : Nat) (gs : List WIn) (s : State) : State :=
  let cl := getCl s j.c
  let gpo := tdGpo j.d
  match p with
  | .dense | .keyless =>
    let ps := densePieces cl j.col0 gpo f.group gs
    let once := deliverAllW j.c f.group j.col0 uid j.verify ps
    let row (r : KeyRow) (s : State) : State := if j.keys then once (denseActs j.c uid r s) else once s
    if j.krows && (j.keys || j.path == 2) then row cl.key1 (again (row cl.key0 s)) else row cl.key0 s
  | .structured | .keyed =>
    let rows := if p == .structured || j.krows then [cl.key0, cl.key1] else [cl.key0]
    let steals := if p == .keyed then keyedSteals cl gpo f.group f.groups rows gs else []
    let outs := gs.map (compactOne cl j.col0 gpo f.group rows ((steals.filter (·.2)).map (·.1)))
    let size := compactSize f.group
    let s := bump (key 0x5012 (j.c + 1)) (nsum (outs.map (fun o => o.2.1))) s
    let s := bump (key 0x5010 5) (nsum (outs.map (fun o => o.2.2))) s
    let s := bump (key 0x5011 (j.c + 1)) steals.length s
    let s := deliverAllA j.c size uid (compactActs gpo f.group rows gs.length) s
    deliverAllW j.c size j.col0 uid j.verify (outs.flatMap (·.1)) s

/-- R132, R151: whether R132 selects the sparse path for the tile: decided at its first sparse-eligible weight expansion, from that
expansion's first container and the tile's activation operand, and kept for the whole tile (log 31). -/
def sparseFor (be : List Nat) (wf : Nat) (wd : Option Nat) (t : Option Tile) : Bool :=
  match t with
  | none => selectsSparse be wf wd
  | some x => x.sparse.getD (selectsSparse be wf wd || selectsSparse be x.aFormat x.govA)

/-- XPW (R118 to R137, R145 to R161): expand `n` weight containers into the tile. R151 gives a tile one path and names no XPW that
governs it: each XPW takes its own PATH and the key rows as it finds them (log 174). An operand expanded to the activation port has loaded
no keys, so a tile for which R132 selects the sparse path is keyless then, whatever its format (log 175). On the dense path two rows make
two expansions of each container (R154), whose anomalies both count (R83); the digest takes the container once (log 184). A verification
feeds no tile and counts no path (R181). An XPW that names no held tile (R218) counts its path as a tile of its own (log 185). -/
def expandWeights (j : XpwJob) (s : State) : State :=
  match fmtOf (tdFormat j.d) with
  | none => s
  | some f =>
    let r := laneReads j.c 0x11 j.d j.slot f j.trans j.n s
    let s := r.2
    let s := match j.dmark with | some m => foldDigest j.c m.1 m.2 (tdTseq j.d) f r.1 s | none => s
    if j.test then s
    else
      let uid := match j.tile, j.verify with | some t, none => t.uid | _, _ => 0
      let wd := match r.1 with | x :: _ => if x.seen.poisoned then none else some (hDensity x.seen.block) | [] => none
      let af := match j.tile with | some t => t.aFormat | none => 0
      let cl := getCl s j.c
      let keyed := j.keys && !cl.key0.keyless && (!j.krows || !cl.key1.keyless)
      let sparse := sparseFor s.plan.cfg.breakEven f.code wd j.tile
      let p := choosePath j.path sparse keyed
      let first := j.verify.isNone && (match j.tile with | some t => !t.started | none => true)
      let s := if first then countPath f.code af p s else s
      let s := feedTile j.c uid (readsRanges r.1) j.pass j.predicted s
      let s := modTile j.c uid (fun t => { t with
        started := true, sparse := if j.path == 2 then some sparse else t.sparse
        fresh := staleAll, ranges := mergeRanges t.ranges (if p == .structured || p == .keyed || j.keys then mergeRanges cl.key0.ranges cl.key1.ranges else []) }) s
      deliverPath (fun s => (laneReads j.c 0x11 j.d j.slot f j.trans j.n s).2) j f p uid (weightGroups f r.1) s

/-! ## Activation expansion (XPA) -/

/-- Positions that one activation scale record covers (R87, R90, R150). -/
def recordLength (d : Nat) (f : Fmt) : Nat :=
  if f.code == 0x11 || ((f.code == 0x13 || f.code == 0x14) && (tdRot d || tdSpair d)) then 64 else 32

/-- R126: the scale of the group at row position `pos` of container header h, whose container begins at row position `pos0`. In group-scale
mode it comes from the scale file of the expanding cluster; the spec names no reader of a scale vector (R92, log 170). -/
def actScaleAt (cl : Cluster) (d pos pos0 : Nat) (rot : Bool) (b : Block) : ActScale :=
  let sm := hScaleMant b
  if sm != 0 then { perToken := true, mant := sm, e := 0, exp := hExp b, rot := rot, source := 2 * pos0 + 1 }
  else
    let g := if rot || tdSpair d then 2 * (pos / 64) else pos / 32
    let e := (tdEntry0 d + g) % 2048
    let v := (tget .cleared cl.scale e).val
    { perToken := false, mant := entryMant v, e := entryExp v, exp := hExp b, rot := rot, source := 2 * e }

/-- R125: a task of these positions of an activation expansion ran on a lane whose fencing is in progress. -/
def loadPoison (cl : Cluster) (p n : Nat) : Bool := lanePoison cl ((taskRange p n 32).map (· % 8))

/-- The scale groups of an activation expansion that begins at row position `pos0`. -/
def actPieces (cl : Cluster) (d pos0 : Nat) (f : Fmt) (l : List LaneRead) : List APiece :=
  let len := recordLength d f
  l.zipIdx.flatMap (fun p =>
    let start := pos0 + p.2 * f.cap
    (chunksOf len (f.cap / len + 1) p.1.exp.vals).zipIdx.map (fun g =>
      let q := p.2 * f.cap + g.2 * len
      { vals := g.1
        scale := if p.1.seen.poisoned then zeroScale else actScaleAt cl d (start + g.2 * len) start p.1.exp.rotated p.1.seen.block
        poison := p.1.seen.poisoned || loadPoison cl q len }))

/-- R151: whether the container at hand supplies a key. Of a poisoned AK container ROTATED is not known, and the rule does not say: the model
takes it as one with a key (log 185). -/
def suppliesKey (f : Fmt) (x : LaneRead) : Bool := hasKey f.code (!x.seen.poisoned && x.exp.rotated)

/-- R149: a poisoned container's windows keep the source that the plan and the layout give them: the entry, or the container
(log 139). -/
def poisonedScale (a : ActScale) : ActScale := { zeroScale with source := a.source }

/-- R144: load a container's keys into a row at its count. Where a poisoned container's header is not at hand (a fenced bank, a tagged slot)
the mode of its source is read from the block that stands for it (log 173). -/
def loadContainer (cl : Cluster) (d pos0 : Nat) (f : Fmt) (p : LaneRead × Nat) (r : KeyRow) : KeyRow :=
  let start := pos0 + p.2 * f.cap
  let v := p.1.seen
  let keys := if v.poisoned then List.replicate (f.cap / 32) [] else windowKeys f v.count v.block
  let sc (w : Nat) : ActScale :=
    let a := actScaleAt cl d (start + 32 * w) start p.1.exp.rotated v.block
    if v.poisoned then poisonedScale a else a
  let r := loadWindows start (suppliesKey f p.1)
    (keys.zipIdx.map (fun k => { entries := k.1, scale := sc k.2, poison := loadPoison cl (p.2 * f.cap + 32 * k.2) 32 })) r
  { r with poison := r.poison || v.poisoned }

/-- The bit of `Tile.fresh` that an XPA to this row clears. -/
def freshBit (row dest : Nat) : Nat := if dest == 1 then 2 ^ 16 else if dest == 2 then 2 ^ 17 else 2 ^ row

/-- Clear a bit of a mask. -/
def clearBit (m b : Nat) : Nat := if m / b % 2 == 1 then m - b else m

/-- The largest DENSITY among AK16 and AK8 containers that are not poisoned (R132). -/
def governing (f : Fmt) (l : List LaneRead) (old : Option Nat) : Option Nat :=
  if f.code == 0x13 || f.code == 0x14 then
    l.foldl (fun a x => if x.seen.poisoned then a else some (max (a.getD 0) (hDensity x.seen.block))) old
  else old

/-- XPA (R118 to R126, R141 to R144, R448). To a key row it also feeds the tile with the rows' ranges at the weight expansion. -/
def expandActs (j : XpaJob) (s : State) : State :=
  match fmtOf (tdFormat j.d) with
  | none => s
  | some f =>
    let r := laneReads j.c 0x12 j.d j.slot f false j.n s
    let s := r.2
    if j.test then s
    else
      let uid := match j.tile with | some t => t.uid | none => 0
      let fresh := match j.tile with | some t => t.fresh | none => 0
      let bit := freshBit j.row j.dest
      let reset := fresh / bit % 2 == 1
      let cl := getCl s j.c
      let ranges := readsRanges r.1
      let s := modTile j.c uid (fun t => { t with
        aFormat := f.code
        toKeys := j.dest != 0
        govA := governing f r.1 (if bitAt t.fresh 18 then none else t.govA)
        fresh := clearBit (clearBit t.fresh bit) (2 ^ 18) }) s
      if j.dest == 0 then
        let old := match j.tile with | some t => tget 0 t.counts j.row | none => 0
        let pos0 := if reset then 0 else old
        let s := feedTile j.c uid ranges j.pass j.predicted s
        let s := modTile j.c uid (fun t => { t with counts := tset 0 t.counts j.row (pos0 + j.n * f.cap) }) s
        deliverAllA j.c (recordLength j.d f) uid (actPieces cl j.d pos0 f r.1) s
      else
        let row0 := if j.dest == 1 then cl.key0 else cl.key1
        let row := if reset then KeyRow.empty else row0
        let row' := (r.1.zipIdx).foldl (fun k p => loadContainer cl j.d row.count f p k) row
        let run : DenseRun := { size := recordLength j.d f, pieces := actPieces cl j.d row.count f r.1 }
        let row'' := { row' with count := row.count + j.n * f.cap, ranges := mergeRanges row.ranges ranges, runs := row'.runs ++ [run] }
        let tiles : Tab Tile := (getCl s j.c).tiles.map (fun e => (e.1, { e.2 with fresh := clearBit e.2.fresh bit }))
        let s := modCl j.c (fun x =>
          if j.dest == 1 then { x with tiles := tiles, key0 := row'' } else { x with tiles := tiles, key1 := row'' }) s
        if r.1.zipIdx.any (fun p => suppliesKey f p.1 && decide (4096 < row.count + p.2 * f.cap + f.cap)) then
          planHazard j.c (curStream s j.c) s
        else s

end Sys2Proof.Machine
end

