-- ==== Sys2Proof/Machine/Flick.lean ====
section
/-! DEFINITION. The flick pass (07): block conversion, estimate and bound, skip decisions, mask release, gates, sampled
verification. -/

namespace Sys2Proof.Machine

/-! ## Conversion (R172) -/

/-- A converted block of 32 activation values. -/
structure FBlock where
  l : Nat
  codes : List Int
  e : Nat
  r : Nat
  deriving DecidableEq, Repr

/-- R172. -/
def convertBlock (q : List Int) : FBlock :=
  let a := nsum (q.map Int.natAbs)
  let z := (q.filter (· != 0)).length
  let l : Nat := if z == 0 then 1 else 2 ^ log2 (a / z)
  let d := q.map (fun x => if 2 * x.natAbs > l then x.sign else 0)
  let res := (List.zipWith (fun x c => (x - c * (l : Int)).natAbs) q d)
  { l := l, codes := d, e := res.foldl max 0, r := nsum res }

/-- R174: block estimate of a neuron's trits. -/
def blockEstimate (b : FBlock) (t : List Int) : Int := (b.l : Int) * isum (List.zipWith (· * ·) t b.codes)

/-- R174: block bound. -/
def blockBound (b : FBlock) (t : List Int) : Nat := min b.r ((t.filter (· != 0)).length * b.e)

/-! ## One neuron and one row (R174, R176) -/

/-- The terms of one block: estimate, bound, scale, exponent. -/
structure FTerm where
  est : Int
  bound : Nat
  sigma : Nat
  x : Int
  deriving DecidableEq, Repr

/-- The lowest and highest exponent of a row's blocks. -/
def termMin (l : List FTerm) : Int := match l with | [] => 0 | t :: r => r.foldl (fun a b => min a b.x) t.x
def termMax (l : List FTerm) : Int := match l with | [] => 0 | t :: r => r.foldl (fun a b => max a b.x) t.x

/-- R174: x_b spans more than 16. -/
def mustCompute (l : List FTerm) : Bool := decide (16 < termMax l - termMin l)

/-- ŝ and B in units of 2^(x_min). -/
def estimateOf (l : List FTerm) : Int := isum (l.map (fun t => t.est * t.sigma * (2 ^ (t.x - termMin l).toNat : Nat)))
def boundOf (l : List FTerm) : Int := isum (l.map (fun t => (t.bound : Int) * t.sigma * (2 ^ (t.x - termMin l).toNat : Nat)))

/-- R176: Θ. -/
def thetaOf (m e xmin : Int) : Int :=
  let k := e - xmin + 8
  let v : Int := if 0 ≤ k then m * (2 ^ k.toNat : Nat) else m / (2 ^ (-k).toNat : Nat)
  max (-(2 ^ 79)) (min (2 ^ 79 - 1) v)

/-- R176: skipped for this row; `m` is 256 in sound mode and FLICK_MARGIN in margin mode. -/
def skipRow (m : Nat) (thetaM thetaE : Int) (l : List FTerm) : Bool :=
  !mustCompute l && decide (256 * estimateOf l + m * boundOf l ≤ thetaOf thetaM thetaE (termMin l))

/-! ## One pass -/

/-- An activation row as the predictor holds it: its blocks and the scale of each. -/
def convertRow (cl : Cluster) (d : Nat) (f : Fmt) (l : List LaneRead) : List (FBlock × ActScale) :=
  l.zipIdx.flatMap (fun p =>
    let start := p.2 * f.cap
    (chunksOf 32 (f.cap / 32) p.1.exp.vals).zipIdx.map (fun g =>
      (convertBlock g.1, if p.1.seen.poisoned then zeroScale
        else actScaleAt cl d (start + 32 * g.2) start p.1.exp.rotated p.1.seen.block)))

/-- A neuron's gate weights: per block of 32 positions its trits, mantissa and EXP. -/
def gateBlocks (f : Fmt) (l : List LaneRead) : List (List Int × Nat × Int) :=
  l.flatMap (fun p => (chunksOf 32 (f.cap / 32) p.exp.vals).zipIdx.map (fun g =>
    (g.1, nth 0 p.exp.mants (32 * g.2 / f.group), hExp p.seen.block)))

/-- The terms of a neuron against a row. -/
def termsOf (row : List (FBlock × ActScale)) (gate : List (List Int × Nat × Int)) : List FTerm :=
  List.zipWith (fun b g =>
    { est := blockEstimate b.1 g.1, bound := blockBound b.1 g.1, sigma := g.2.1 * b.2.mant
      x := g.2.2 + b.2.exp + b.2.e - 14 - (if b.2.rot then 6 else 0) }) row gate

/-- R180: a sample neuron, by its layer neuron number. -/
def isSample (j : Nat) : Bool := j * 0x9E3779B9 % 2 ^ 32 / 2 ^ 26 == 0

/-- R176: the effective mode. -/
def effectiveMode (s : State) (cl : Cluster) (mode : Nat) : Nat := if cl.flickFenced then 0 else min mode s.plan.cfg.flickMax

/-- The place of a pass whose mask is not yet released. -/
def pendingKey (t : Tab FlickPass) : Nat := t.foldl (fun a e => max a (e.1 + 1)) 16

/-- R181: a pass of this effective mode is verified. -/
def verifies (s : State) (mode : Nat) : Bool := mode == 2 || (mode == 1 && s.plan.cfg.flickVerify)

/-- R181: the skipped sample neurons of the mask, by index in the range. -/
def verifyList (s : State) (mode nbase ncount skip : Nat) : List Nat :=
  if verifies s mode then
    (List.range ncount).filter (fun n => bitAt skip n && isSample (nbase + n))
  else []

/-- The mask of R176 and the number of must-compute marks. -/
def evaluatePass (mode margin : Nat) (thetaM thetaE : Int) (rows : List (List (FBlock × ActScale)))
    (gates : List (List (List Int × Nat × Int))) : Nat × Nat :=
  let m := if mode == 1 then 256 else margin
  let terms := gates.map (fun g => rows.map (fun r => termsOf r g))
  let skip := maskOf terms.length (fun n => mode != 0 && (nth [] terms n).all (skipRow m thetaM thetaE))
  (skip, nsum (terms.map (fun t => (t.filter mustCompute).length)))

/-- FLICK at its issue (R171, R176): the pass, its containers still to be read. FLICK_EVALUATED and FLICK_RANGE (R191) do not say of a pass in
mode off, a poisoned one or one begun under a fence whether its neurons count: the model counts the first two in full and the third as
none (log 185). -/
def newPass (cl : Cluster) (s : State) (pass mode fd rows : Nat) : FlickPass :=
  let d := flickOf s fd
  { uid := cl.nextPass + 1, pass := pass, fdesc := fd, mode := effectiveMode s cl mode, nbase := fdNbase d, ncount := fdNcount d, rows := rows
    thetaM := fdThetaM d, thetaE := fdThetaE d, skip := 0, released := false, poisoned := false, residueFail := false, verify := []
    evaluated := if cl.flickFenced then 0 else fdNcount d, rangeMarks := 0, ranges := [], busyTo := s.clock.tick + ceilFlick s fd rows
    waiting := true }

/-- Change the pass of this uid. -/
def modPass (c uid : Nat) (f : FlickPass → FlickPass) (s : State) : State :=
  modCl c (fun cl => { cl with flickPasses := cl.flickPasses.map (fun e => if e.2.uid == uid then (e.1, f e.2) else e) }) s

/-- The pass of this uid is evaluated on its activation rows `a` and its gate containers `g` (R170 to R176, R190). -/
def evalPass (cl : Cluster) (s : State) (j : FlickJob) (af gf : Fmt) (a g : List LaneRead) (p : FlickPass) : FlickPass :=
  let rowsConv := (chunksOf (fdAcnt j.fd) j.rows a).map (convertRow cl j.ad af)
  let gates := (chunksOf (fdGcnt j.fd) (fdNcount j.fd) g).map (gateBlocks gf)
  let ev := if cl.flickFenced then (0, 0) else evaluatePass p.mode s.plan.cfg.flickMargin p.thetaM p.thetaE rowsConv gates
  { p with
    skip := ev.1, rangeMarks := ev.2, ranges := mergeRanges (readsRanges a) (readsRanges g), waiting := false
    poisoned := p.poisoned || (a ++ g).any (fun x => x.seen.poisoned)
      || lanePoison cl (taskRange 0 (a.length * af.cap) 32) || lanePoison cl (taskRange 0 (g.length * gf.cap) 64) }

/-- FLICK: the lanes read its containers, and the predictor evaluates the pass. -/
def runPass (c : Nat) (j : FlickJob) (s : State) : State :=
  match fmtOf (tdFormat j.ad), fmtOf (tdFormat j.gd) with
  | some af, some gf =>
    let a := laneReads c 0x13 j.ad j.aslot af false (j.rows * fdAcnt j.fd) s
    let g := laneReads c 0x13 j.gd j.gslot gf false (fdNcount j.fd * fdGcnt j.fd) a.2
    modPass c j.uid (evalPass (getCl g.2 c) g.2 j af gf a.1 g.1) g.2
  | _, _ => s

/-- FLICK begins pass `pass` on the descriptor of number `fd`. -/
def beginPass (c pass mode fd rows : Nat) (s : State) : State :=
  modCl c (fun cl => { cl with
    flickPasses := tins cl.flickPasses (pendingKey cl.flickPasses) (newPass cl s pass mode fd rows), nextPass := cl.nextPass + 1 }) s

/-- The oldest pass of a number whose mask is not yet released. -/
def pendingPass (cl : Cluster) (pass : Nat) : Option (Nat × FlickPass) :=
  cl.flickPasses.find? (fun e => 16 ≤ e.1 && e.2.pass == pass)

/-- The released mask of a pass number. -/
def releasedPass (cl : Cluster) (pass : Nat) : Option FlickPass :=
  (cl.flickPasses.find? (fun e => e.1 == pass)).map (·.2)

/-- FLICK_MASK_RELEASE (R176, R184, R188, R190). A pass whose containers have not all come releases no mask (R30). -/
def execFlickMaskRelease (c : BitVec 5) (pass : BitVec 4) (s : State) : Host.Outcome State Fault Refusal :=
  guarded (c.toNat < nClusters s.hw) s fun s =>
    let cl := getCl s c.toNat
    match pendingPass cl pass.toNat with
    | none => s
    | some (k, p) => whenS (!p.waiting) s fun s =>
      let none_ := p.poisoned || p.residueFail || cl.flickFenced
      let skip := if none_ then 0 else p.skip
      let p' := { p with skip := skip, released := true, verify := verifyList s p.mode p.nbase p.ncount skip }
      let s := setCl c.toNat { cl with
        flickPasses := tins (tdel cl.flickPasses k) pass.toNat p', verify := cl.verify.filter (fun x => x.pass != pass.toNat) } s
      let s := bump (key 0x5180 1) 1 s
      let s := bump (key 0x5180 2) p.evaluated s
      let s := bump (key 0x5180 3) (popcount p.ncount skip) s
      let s := bump (key 0x5180 7) p.rangeMarks s
      bumpIf (p.poisoned || p.residueFail) (key 0x5180 9) 1 s

/-! ## Gated instructions (R185, R189, R190, R230) -/

/-- The pass that a gated instruction names, by its uid: the one whose mask is released, else the one in progress (R189, R190). -/
def gatePass (s : State) (c : Nat) : Option Nat :=
  match (getSeq s c).gate with
  | none => none
  | some (pass, _) =>
    match releasedPass (getCl s c) pass, pendingPass (getCl s c) pass with
    | some p, _ => some p.uid
    | none, some (_, p) => some p.uid
    | none, none => none

/-- What a GATE finds: whether the neuron is skipped, whether the mask was late, the pass of a mask that marks it, whether the pass
it names has an effective mode other than off (R187), and that pass by its uid. -/
structure GateOut where
  skip : Bool
  late : Bool
  pass : Option FlickPass
  predicted : Bool
  uid : Option Nat
  deriving DecidableEq, Repr

def noGate : GateOut := { skip := false, late := false, pass := none, predicted := false, uid := none }

/-- R187: the pass that a gated instruction names, its mask released or not, has an effective mode other than off. -/
def passPredicts (cl : Cluster) (pass : Nat) : Bool :=
  match releasedPass cl pass, pendingPass cl pass with
  | some p, _ => p.mode != 0
  | none, some (_, p) => p.mode != 0
  | none, none => false

/-- R230: the pending prefix of sequencer (and cluster) c. -/
def gateOf (s : State) (c : Nat) : GateOut :=
  match (getSeq s c).gate with
  | none => noGate
  | some (pass, n) =>
    let pr := passPredicts (getCl s c) pass
    let u := gatePass s c
    match releasedPass (getCl s c) pass with
    | none => { skip := false, late := true, pass := none, predicted := pr, uid := u }
    | some p => if p.ncount ≤ n then { skip := false, late := true, pass := none, predicted := pr, uid := u }
                else { skip := bitAt p.skip n, late := false, pass := some p, predicted := pr, uid := u }

/-- R181: the gated neuron is a skipped sample neuron whose verification is due. -/
def gateVerify (s : State) (c : Nat) : Option (Nat × Nat) :=
  match (getSeq s c).gate, (gateOf s c).pass with
  | some (pass, n), some p => if (gateOf s c).skip && p.verify.contains n then some (pass, n) else none
  | _, _ => none

/-- R189, R190: a gated instruction that found no valid mask. -/
def countLate (g : GateOut) (s : State) : State := bumpIf g.late (key 0x5180 8) 1 s

/-- R183, R187: the tile that a gated instruction feeds is marked, and keeps the pass that it names, whether or not the instruction is
skipped: a wrong skip leaves out what the tile should hold. -/
def markPredicted (c num : Nat) (g : GateOut) (s : State) : State :=
  match openTile (getCl s c) num with
  | some (_, t) => if g.uid.isSome then modTile c t.uid (fun t => { t.fedBy g.uid with predicted := t.predicted || g.predicted }) s else s
  | none => s

/-- R127: the lane serves a position; an idle spare runs no task. -/
def laneServes (cl : Cluster) (lane : Nat) : Bool := (List.range 16).any (fun p => physicalLane cl p == lane)

/-- R190: a lane whose fencing begins poisons the deliveries of the passes in progress, so their masks skip nothing. Until when a pass is in
progress the rule does not say, nor which of its deliveries the lane serves: the model takes the planned ceiling from the FLICK's issue, and
any lane that serves a position (log 185). -/
def FlickPass.laneLost (now : Nat) (e : Nat × FlickPass) : Nat × FlickPass :=
  if 16 ≤ e.1 && (e.2.waiting || decide (now ≤ e.2.busyTo)) then (e.1, { e.2 with poisoned := true }) else e

/-- R128 step 2, R125, R190: from now until the remap every delivery with a task of this lane carries poison. -/
def poisonLane (c lane : Nat) (s : State) : State :=
  modCl c (fun cl => if cl.poisonLanes.contains lane then cl else
    { cl with poisonLanes := lane :: cl.poisonLanes, flickPasses := if laneServes cl lane then cl.flickPasses.map (FlickPass.laneLost s.clock.tick) else cl.flickPasses }) s

/-! ## Verification (R181 to R183) -/

/-- R181: some row of the verification has s > θ. -/
def verifyMiss (p : FlickPass) (a : VerifyAcc) : Bool :=
  (List.range p.rows).any (fun r => decide (p.thetaM * (2 ^ (p.thetaE + 512).toNat : Nat) < tget 0 a.sums r))

/-- R183, R211: a sound-mode miss of the pass of this uid; the verification is the work of an XPW (R354, log 157). -/
def soundMiss (c uid : Nat) (s : State) : State :=
  let s := bump (key 0x5180 6) 1 s
  let s := raise { source := BitVec.ofNat 12 (srcFlick c), cls := .contained, access := 0xB, syndrome := 0xFFFF,
                   op := BitVec.ofNat 8 (workOp s c 0x11), stream := BitVec.ofNat 10 (curStream s c), tenant := BitVec.ofNat 8 (curTenant s c) } s
  modCl c (fun cl => { cl with
    tiles := cl.tiles.map (fun e => if e.2.flickPasses.contains uid then (e.1, e.2.hurt) else e) }) s

/-- FLICK_VERIFY_RESULT (R181 to R183): the verification of neuron index `neuron` of a pass's range ends. -/
def execFlickVerifyResult (c : BitVec 5) (pass : BitVec 4) (neuron : BitVec 13) (s : State) :
    Host.Outcome State Fault Refusal :=
  guarded (c.toNat < nClusters s.hw) s fun s =>
    let cl := getCl s c.toNat
    match releasedPass cl pass.toNat with
    | none => s
    | some p =>
      if p.verify.contains neuron.toNat then
        let a := (cl.verify.find? (fun x => x.pass == pass.toNat && x.neuron == neuron.toNat)).getD
          { pass := pass.toNat, neuron := neuron.toNat, sums := [] }
        let p' := { p with verify := p.verify.filter (· != neuron.toNat) }
        let s := setCl c.toNat { cl with
          flickPasses := tins cl.flickPasses pass.toNat p'
          verify := cl.verify.filter (fun x => !(x.pass == pass.toNat && x.neuron == neuron.toNat)) } s
        let s := bump (key 0x5180 4) 1 s
        if !verifyMiss p a then s
        else if p.mode == 1 then soundMiss c.toNat p.uid s
        else bump (key 0x5181 (c.toNat + 1)) 1 (bump (key 0x5180 5) 1 s)
      else s

end Sys2Proof.Machine
end

