-- ==== Sys2Proof/Machine/PackUnit.lean ====
section
/-! DEFINITION. The pack unit (04, 06, 08): drain, tracker, quantisation, pruning, containers, row statistics, the write queue
with its verdicts, scale vectors, save areas. -/

namespace Sys2Proof.Machine

/-! ## What one container's packing gives -/

/-- A container's packing: the block before POISON of its tile and before check bytes, the scale file after it, what it counts. -/
structure PackOut where
  block : Block
  scale : Tab ScaleEntry
  sat : Nat := 0
  clamp : Nat := 0
  token : Nat := 0
  ties : Nat := 0
  deriving DecidableEq, Repr

/-- What a drain packs: the tensor descriptor, its format, X_T, the request, the tile's PREDICTED mark. -/
structure PackJob where
  c : Nat
  d : Nat
  f : Fmt
  xt : Int
  ptok : Bool
  stoch : Bool
  predicted : Bool
  epoch : Nat
  inst : Nat
  floorExp : Int
  window : Nat
  deriving DecidableEq, Repr

/-- The header of a container of the job (R40, R42). -/
def jobHeader (j : PackJob) (poison : Bool) (exp : Int) (count nz : Nat) (rot tail stoch : Bool) (mant : Nat) : Header :=
  { format := j.f.code, poison := poison, epoch := j.epoch % 4096, tenant := tdTenant j.d, exp := exp, count := count,
    density := densityOf j.f (min nz j.f.nmax), zeroChan := nz == 0, rotated := rot, rowTail := tail, stochastic := stoch,
    transposable := j.f.code == 0x05, predicted := j.predicted, prodInst := j.inst % 4096, prodUnit := srcPack j.c,
    tensorSeq := tdTseq j.d, scaleMant := mant }

/-- Header and payload as a block with zero check bytes. -/
def rawBlock (h : Header) (payload : List Nat) : Block :=
  BitVec.ofNat 2048 (headerBits h + ofBytes (payload.take 224) * 2 ^ 128)

/-- Groups of a payload: groups at or above VALID_COUNT are zero bytes (R43, R63). -/
def payloadGroups (f : Fmt) (count : Nat) (groups : List (List Nat)) : List Nat :=
  groups.zipIdx.flatMap (fun g => if count ≤ f.group * g.2 then List.replicate f.bytes 0 else g.1.take f.bytes)

/-- Pad a list of integers with zeros to n elements. -/
def padTo (n : Nat) (l : List Int) : List Int := l ++ List.replicate (n - l.length) 0

/-! ## Weights (R107, R163) and CX32 (R297) -/

/-- The bytes of one weight group. -/
def encWeight (f : Fmt) (trits : List Int) (mant : Nat) : List Nat :=
  match f.code with
  | 0x01 | 0x02 | 0x03 => encWt5 trits mant
  | 0x04 | 0x05 => encWs24 trits mant
  | 0x06 => encWb 8 trits mant
  | 0x07 => encWb 16 trits mant
  | 0x08 => encWb 24 trits mant
  | _ => encWb 32 trits mant

/-- One weight container from accumulator integers (0 where poisoned). A block wholly at or above VALID_COUNT is a block of zeros and counts
in TMASK_TIES as any other (R165, log 177). -/
def packWeights (j : PackJob) (vals : List Int) (poison tail : Bool) (sc : Tab ScaleEntry) : PackOut :=
  let gs := (chunksOf j.f.group j.f.groups (padTo j.f.cap vals)).map (fun g =>
    let k := weightKeeps j.f.code (g.map Int.natAbs)
    (repackGroup g j.xt (tdB j.d) k.1, k.2))
  let nz := nsum (gs.map (fun g => (g.1.1.filter (· != 0)).length))
  { block := rawBlock (jobHeader j poison (tdB j.d) vals.length nz false tail false 0)
      (payloadGroups j.f vals.length (gs.map (fun g => encWeight j.f g.1.1 g.1.2.1)))
    scale := sc, clamp := (gs.filter (fun g => g.1.2.2)).length, ties := nsum (gs.map (·.2)) }

/-- One CX32 container. -/
def packCx (j : PackJob) (vals : List Int) (poison tail : Bool) (sc : Tab ScaleEntry) : PackOut :=
  let q := vals.map (fun v => quantise v j.xt 1 (tdB j.d) (2 ^ 31 - 1) none)
  let nz := (q.filter (fun x => x.1 != 0)).length
  { block := rawBlock (jobHeader j poison (tdB j.d) vals.length nz false tail false 0) (encCx (q.map (·.1)))
    scale := sc, sat := (q.filter (·.2)).length }

/-! ## Activations (R89 to R104, R162) -/

/-- The entry of the element at feature `col`, none beyond the tensor's range (R89, R90, R150). A descriptor with SPAIR pairs the entries of
any format, AI8 too, of which R150 does not speak (log 140). Where NENT is odd the elements of the last pair's second group share the entry of
its first: R89 and R90 do not say whether they have one (log 185). -/
def entryOf (d : Nat) (rot : Bool) (col : Nat) : Option Nat :=
  let g := if rot || tdSpair d then 2 * (col / 64) else col / 32
  if g < tdNent d then some ((tdEntry0 d + g) % 2048) else none

/-- An element at the quantiser input. -/
structure QIn where
  val : Int
  bad : Bool
  entry : Option Nat
  deriving DecidableEq, Repr

/-- R109, R202: the quantiser inputs of a container whose first element is feature `c0`. In a rotated block that is partly valid all 64
coefficients count as valid elements: each depends on every valid element, and all 64 codes are stored (R79; log 141). -/
def quantiserInputs (d : Nat) (rot : Bool) (c0 : Nat) (vals : List (Int × Bool)) : List QIn :=
  if rot then
    (chunksOf 64 (vals.length / 64 + 1) vals).zipIdx.flatMap (fun b =>
      let bad := b.1.any (·.2)
      (wht64 (padTo 64 (b.1.map (·.1)))).zipIdx.map (fun x =>
        { val := if bad then 0 else x.1, bad := bad, entry := entryOf d rot (c0 + 64 * b.2 + x.2) }))
  else vals.zipIdx.map (fun x => { val := if x.1.2 then 0 else x.1.1, bad := x.1.2, entry := entryOf d rot (c0 + x.2) })

/-- R94: the tracker observes every element that is not poisoned and has an entry. -/
def observeAll (xt : Int) (l : List QIn) (sc : Tab ScaleEntry) : Tab ScaleEntry :=
  l.foldl (fun t q => match q.entry with
    | some e => if q.bad then t else tmod .cleared t e (observeEntry (magnitude q.val xt))
    | none => t) sc

/-- The step of an element: its own entry's, or the container's (mantissa and the exponent k of mant × 2^k). -/
def stepOf (d : Nat) (sc : Tab ScaleEntry) (tok : Option (Nat × Int)) (e : Option Nat) : Nat × Int :=
  match tok, e with
  | some t, _ => t
  | none, some e => let v := (tget .cleared sc e).val; (entryMant v, entryExp v + tdB d - 7)
  | none, none => (128, 0)

/-- R102, R103: codes in element order; `u` is the generator's state when rounding is stochastic. -/
def quantiseAll (d : Nat) (xt : Int) (qmax : Nat) (tok : Option (Nat × Int)) (sc : Tab ScaleEntry) :
    Option Nat → List QIn → List (Int × Bool)
  | _, [] => []
  | u, q :: r =>
    let u' := u.map genStep
    let st := stepOf d sc tok q.entry
    let x := if q.bad then (0, false) else quantise q.val xt st.1 st.2 qmax u'
    x :: quantiseAll d xt qmax tok sc u' r

/-- R102 step 3: the saturation counts of the elements' entries, group-scale containers only. -/
def countSaturated (l : List (QIn × Int × Bool)) (sc : Tab ScaleEntry) : Tab ScaleEntry :=
  l.foldl (fun t x => match x.1.entry with
    | some e => if x.2.2 then tmod .cleared t e (saturateEntry 1) else t
    | none => t) sc

/-- The payload groups of activation codes, and the number of stored non-zero codes. -/
def encActs (f : Fmt) (codes : List Int) : List (List Nat) × Nat :=
  let gs := chunksOf f.group f.groups (padTo f.cap codes)
  match f.code with
  | 0x10 => (gs.map encAi8, (codes.filter (· != 0)).length)
  | 0x11 => (gs.map encAi4, (codes.filter (· != 0)).length)
  | 0x12 =>
    let q := gs.map (fun g => (chunksOf 4 8 g).map (fun x =>
      match keepLargest 2 (x.map Int.natAbs) with
      | [a, b] => (nth 0 (positions 6 (fun p => pairA p == a && pairB p == b)) 0, nth 0 x a, nth 0 x b)
      | _ => (0, 0, 0)))
    (q.map encAs24, nsum (q.map (fun g => nsum (g.map (fun x => b2n (x.2.1 != 0) + b2n (x.2.2 != 0))))))
  | c =>
    let n := if c == 0x13 then 16 else 8
    let e := gs.map (fun g => (keepLargest n (g.map Int.natAbs)).map (fun i => (i, nth 0 g i)))
    (e.map encAk, nsum (e.map (fun g => (g.filter (fun x => x.2 != 0)).length)))

/-- R76, R79: the tensor's payload is rotated. -/
def packRotates (d : Nat) (f : Fmt) : Bool := f.code == 0x11 || ((f.code == 0x13 || f.code == 0x14) && tdRot d)

/-- R100: the container is packed per-token. -/
def needsToken (j : PackJob) (sc : Tab ScaleEntry) (l : List QIn) : Bool :=
  j.ptok || l.any (fun q => match q.entry with | some e => !entryUsable j.window (tget .cleared sc e) | none => true)

/-- One activation container: number `k` of the instruction, first feature `c0`. -/
def packActs (j : PackJob) (k c0 : Nat) (vals : List (Int × Bool)) (tail : Bool) (sc : Tab ScaleEntry) : PackOut :=
  let rot := packRotates j.d j.f
  let qmax := qmaxOf j.f.code
  let l := quantiserInputs j.d rot c0 vals
  let sc := observeAll j.xt l sc
  let isTok := needsToken j sc l
  let ts := perTokenStep (maxDyad ((l.filter (fun q => !q.bad)).map (fun q => magnitude q.val j.xt))) qmax j.floorExp
  let tok := if isTok then some (ts.mant, ts.exp - 7) else none
  let codes := quantiseAll j.d j.xt qmax tok sc (if j.stoch then some (genSeed (tdSeed j.d) k) else none) l
  let sc := if isTok then sc else countSaturated (l.zip codes) sc
  let e := encActs j.f (codes.map (·.1))
  { block := rawBlock (jobHeader j (vals.any (·.2)) (if isTok then ts.exp else tdB j.d) vals.length e.2 rot tail j.stoch
      (if isTok then ts.mant else 0)) (payloadGroups j.f vals.length e.1)
    scale := sc, sat := (codes.filter (·.2)).length, clamp := b2n (isTok && (ts.low || ts.high)), token := b2n isTok }

/-- One container of a drain; `acc` are its accumulators. -/
def packOne (j : PackJob) (k c0 : Nat) (acc : List Word) (tail : Bool) (sc : Tab ScaleEntry) : PackOut :=
  let v := acc.map (fun a => if a == accPois then ((0 : Int), true) else (a.toInt, false))
  if j.f.isAct then packActs j k c0 v tail sc
  else if j.f.isWeight then packWeights j (v.map (·.1)) (v.any (·.2)) tail sc
  else packCx j (v.map (·.1)) (v.any (·.2)) tail sc

/-! ## The drain (R202, R206 to R208, R213) -/

/-- R89: the entries that a pack instruction of `cols` features uses. -/
def usedEntries (d : Nat) (f : Fmt) (cols : Nat) : List Nat :=
  ((List.range cols).filterMap (entryOf d (packRotates d f))).eraseDups

def useEntries (d : Nat) (f : Fmt) (cols : Nat) (sc : Tab ScaleEntry) : Tab ScaleEntry :=
  if f.isAct then (usedEntries d f cols).foldl (fun t e => tmod .cleared t e (useEntry (tdTseq d) (tdB d) (qmaxOf f.code))) sc
  else sc

/-- R202, R207, R211: what the drain reads of accumulator i. -/
def drainWord (t : Tile) (acc : List Word) (i : Nat) : Word :=
  if t.poison then accPois else if !t.keep && !bitAt t.touched i then 0 else nth 0 acc i

/-- Table 8.7: the record of one row. -/
def statsRecord (t : Tile) (row : List Word) : BitVec 256 :=
  let good := row.filter (· != accPois)
  BitVec.ofNat 256 (put (twos 8 t.xt) 248 8 + put (b2n (row.any accSat)) 241 1 + put (b2n (row.any (· == accPois))) 240 1
    + put t.cols 224 16 + put (nsum (good.map (fun a => a.toInt.natAbs * a.toInt.natAbs))) 80 144
    + put (twos 80 (isum (good.map (fun a => a.toInt)))) 0 80)

/-- The accumulators of each container of a row: first feature, words, whether it is the row's last. -/
def rowPieces (cap : Nat) (row : List Word) : List (Nat × List Word × Bool) :=
  let cs := chunksOf cap (row.length / cap + 1) row
  cs.zipIdx.map (fun x => (cap * x.2, x.1, x.2 + 1 == cs.length))

/-- The destination of container k of a request. -/
def destOf (d : Nat) (r : PackReq) (k : Nat) : PackDest := match r.link with | some p => .link p | none => .mem d (r.off + k)

/-- R20: the ticks at which containers of these element counts are completed, one lane-clock cycle to a tick (log 39). -/
def drainTicks (t : Nat) : List Nat → List Nat
  | [] => []
  | e :: r => let u := t + max 2 (ceilDiv e 128); u :: drainTicks u r

/-- The job of a tile's drain (R225, R297). -/
def drainJob (s : State) (c : Nat) (t : Tile) (r : PackReq) (f : Fmt) : PackJob :=
  { c := c, d := t.drainDesc, f := f, xt := t.xt, ptok := r.ptok || r.link.isSome, stoch := r.stoch, predicted := t.predicted
    epoch := epochOf s, inst := instanceId s, floorExp := s.plan.cfg.floorExp, window := s.plan.cfg.scaleWindow }

/-- A completed container, not yet sealed. -/
def drainedItem (t : Tile) (r : PackReq) (p : DrainPiece) (b : Block) : PackItem :=
  { id := 0, endTick := p.endTick, block := b, dest := destOf t.drainDesc r p.num, arrived := r.link.isNone, residue := .unsettled,
    ranges := t.ranges, by_ := r.by_, stream := r.stream, tenant := r.tenant }

/-- R20: the pack unit of cluster c completes a container of the drain in entry `entry`: it is packed, observed and counted now. -/
def completePiece (c entry : Nat) (t : Tile) (r : PackReq) (f : Fmt) (p : DrainPiece) (s : State) : State :=
  let cl := getCl s c
  let o := packOne (drainJob s c t r f) p.num p.first p.words p.tail cl.scale
  let t' := { t with made := t.made ++ [drainedItem t r p o.block], drained := t.drained ++ [p.words], toPack := t.toPack.drop 1 }
  let s := setCl c { cl with scale := o.scale, tiles := tins cl.tiles entry t' } s
  bump (key 0x5013 (c + 1)) o.ties (bump (key 0x4012 (c + 1)) o.clamp (bump (key 0x4011 (c + 1)) o.token (bump (key 0x4010 (c + 1)) o.sat s)))

/-- The drain in an entry completes its containers, at most `n`, that `due` selects by their tick. -/
def completeDrain (c entry : Nat) (due : Nat → Bool) : Nat → State → State
  | 0, s => s
  | n + 1, s =>
    match (getCl s c).tiles.find? (fun e => e.1 == entry) with
    | none => s
    | some (_, t) =>
      match t.closed, fmtOf (tdFormat t.drainDesc), t.toPack with
      | some r, some f, p :: _ => if due p.endTick then completeDrain c entry due n (completePiece c entry t r f p s) else s
      | _, _, _ => s

/-- R20, R202: the containers of cluster c's drains that are complete by this tick. -/
def drainTick (c : Nat) (s : State) : State :=
  forEach (getCl s c).tiles (fun e s => completeDrain c e.1 (fun t => decide (t ≤ s.clock.tick)) e.2.toPack.length s) s

/-- Drain a closed tile: the containers that its drain will complete, each at its tick, and the entries that the pack instruction uses. -/
def drainTile (c entry : Nat) (t : Tile) (r : PackReq) (acc : List Word) (s : State) : State :=
  let d := tensorOf s r.desc
  match fmtOf (tdFormat d) with
  | none => s
  | some f =>
    let cl := getCl s c
    let rows := (List.range t.rows).map (fun i => (List.range t.cols).map (fun k => drainWord t acc (i * t.cols + k)))
    let pieces := rows.flatMap (rowPieces f.cap)
    let ends := drainTicks s.clock.tick (pieces.map (fun p => p.2.1.length))
    let todo := pieces.zipIdx.map (fun x => ({
      num := x.2, first := x.1.1, words := x.1.2.1, tail := x.1.2.2, endTick := nth 0 ends x.2 } : DrainPiece))
    let t' := { t with ready := true, toPack := todo, drainDesc := d }
    let s := setCl c { cl with scale := useEntries d f t.cols cl.scale, tiles := tins cl.tiles entry t' } s
    if t.sat then flagSat r.stream s else s

/-- R208: the pass of this uid has verification active and its verification has not ended; it has not begun while its mask is not
released, and a pass that another of its number replaced has ended (R190). -/
def verifying (s : State) (cl : Cluster) (uid : Nat) : Bool :=
  cl.flickPasses.any (fun e => e.2.uid == uid && (if e.2.released then !e.2.verify.isEmpty else verifies s e.2.mode))

/-- R30: an expansion that the lanes have still to do names the tile. -/
def LaneWork.names (uid : Nat) : LaneWork → Bool
  | .xpw j => match j.tile with | some t => t.uid == uid | none => false
  | .xpa j => match j.tile with | some t => t.uid == uid | none => false
  | _ => false

/-- R208: a closed tile whose expansions and updates are done and whose verifications have ended may be drained. -/
def drainable (s : State) (cl : Cluster) (t : Tile) : Bool :=
  t.closed.isSome && !t.ready && !cl.lane.any (fun j => j.work.names t.uid) && !cl.updates.any (fun u => u.tile == t.uid)
  && !t.flickPasses.any (verifying s cl)

/-- R435: the scratchpad reads of a tile's accumulators: SPD_IDX and SPD_CNT, 1 to 128 consecutive accumulators of a row. -/
def tileReads (t : Tile) : List (Nat × Nat) :=
  (List.range t.rows).flatMap (fun r =>
    (List.range (ceilDiv t.cols 128)).map (fun k => (t.index r (128 * k), min 128 (t.cols - 128 * k))))

/-- A drain or a save reads the tile (R20, R215, R435). -/
def readTile (c : Nat) (t : Tile) (s : State) : State := forEach (tileReads t) (fun x s => emit (.spadRead c x.1 x.2) s) s

/-- TILE_DRAIN_READY (R208): cycle D of a closed tile; `acc` are its accumulators row by row. In the fatal state the drain drives no
access (R369). -/
def execTileDrainReady (c : BitVec 5) (entry : BitVec 3) (acc : List Word) (s : State) : Host.Outcome State Fault Refusal :=
  guarded (c.toNat < nClusters s.hw) s fun s => whenS (!s.faults.fatal) s fun s =>
    let cl := getCl s c.toNat
    match cl.tiles.find? (fun e => e.1 == entry.toNat) with
    | none => s
    | some (_, t) =>
      match t.closed with
      | none => s
      | some r =>
        if !drainable s cl t then s
        else if t.far.isSome then
          let s := modTile c.toNat t.uid (fun t => { t with ready := true }) s
          if t.sat then flagSat r.stream s else s
        else drainTile c.toNat entry.toNat t r acc (readTile c.toNat t s)

/-! ## The write queue and verdicts (R280, R283, R284) -/

/-- R212, R217, R211: seal a container: POISON of its tile, then the check bytes. -/
def sealBlock (poison : Bool) (b : Block) : Block := if poison then markPoison b else encodeCheck b

/-- R280: an item's verdict. -/
def itemVerdict (s : State) (i : PackItem) : Verdict :=
  match i.residue with
  | .unsettled => .unsettled
  | .retracted => .retracted
  | .confirmed => if rangesOpen s i.ranges then .unsettled else .confirmed

def PackItem.toMem (i : PackItem) : Bool := match i.dest with | .mem _ _ => true | .link _ => false

/-- The memory containers at the head of the queue whose verdict is known and that may leave, at most `n`, and the rest. -/
def takeSettled (s : State) : Nat → List PackItem → List PackItem × List PackItem
  | _, [] => ([], [])
  | n, i :: r =>
    if i.toMem then
      (match n with
       | 0 => ([], i :: r)
       | n + 1 => if itemVerdict s i = .unsettled then ([], i :: r) else let t := takeSettled s n r; (i :: t.1, t.2))
    else let t := takeSettled s n r; (t.1, i :: t.2)

/-- Write one container that has left the queue. -/
def writeItem (c : Nat) (i : PackItem) (s : State) : State :=
  match i.dest with
  | .mem d off => sendWrite c (srcPack c) 0x19 i.stream i.tenant d off i.block true i.by_ s
  | .link _ => s

/-- R284, R334: containers whose verdict is settled leave for the fabric write port, in order, while its queue has room. -/
def drainQueue (c : Nat) (s : State) : State :=
  let t := takeSettled s (writeRoom s c) (getCl s c).packQueue
  forEach t.1 (writeItem c) (modCl c (fun cl => { cl with packQueue := t.2 }) s)

/-- R280, R283: a retracted container is poisoned and its check bytes made again; one for a link stays as it is. -/
def retractItem (i : PackItem) : PackItem :=
  { i with residue := .retracted, block := if i.toMem then markPoison i.block else i.block }

/-- Settle the residue verdict of item `id` of a cluster's pack unit; what may leave leaves with `settleAll`. -/
def settlePack (c id : Nat) (confirm : Bool) (s : State) : State :=
  let cl := getCl s c
  let q := cl.packQueue.map (fun i =>
    if i.id == id && i.residue = .unsettled then (if confirm then { i with residue := .confirmed } else retractItem i) else i)
  let hit := cl.packQueue.filter (fun i => i.id == id && i.residue = .unsettled)
  let s := setCl c { cl with packQueue := q } s
  if confirm then s else forEach hit (fun i s => flagPoison i.stream s) s

/-- R213: the drained rows of a tile, each the accumulators of its containers in order. -/
def Tile.drainedRows (t : Tile) : List (List Word) := (chunksOf (t.drained.length / t.rows) t.rows t.drained).map (·.flatten)

/-- TILE_RELEASE (R208, R213): the drain is over, the containers enter the write queue, the statistics are written, the entry is released. A full
queue makes the unit wait (R284), and in the fatal state the drain drives no access (R369). -/
def execTileRelease (c : BitVec 5) (entry : BitVec 3) (s : State) : Host.Outcome State Fault Refusal :=
  guarded (c.toNat < nClusters s.hw) s fun s => whenS (!s.faults.fatal) s fun s =>
    let cl := getCl s c.toNat
    match cl.tiles.find? (fun e => e.1 == entry.toNat) with
    | none => s
    | some (_, t) =>
      match t.closed with
      | none => s
      | some r =>
        if !t.ready || 128 < cl.packQueue.length + t.made.length + t.toPack.length then s
        else
          let s := completeDrain c.toNat entry.toNat (fun _ => true) t.toPack.length s
          let cl := getCl s c.toNat
          let t := match cl.tiles.find? (fun e => e.1 == entry.toNat) with | some (_, t) => t | none => t
          let items := t.made.zipIdx.map (fun x => { x.1 with id := cl.nextItem + x.2, block := sealBlock (hPoison x.1.block) x.1.block })
          let s := setCl c.toNat { cl with tiles := tdel cl.tiles entry.toNat, packQueue := cl.packQueue ++ items, nextItem := cl.nextItem + items.length } s
          let s := bump (key 0xA000 4) items.length s
          let s := if items.any (fun i => hPoison i.block) || (t.far.isSome && t.poison) then flagPoison r.stream s else s
          let rows := if r.stats then t.drainedRows else []
          let s := forEach rows.zipIdx (fun x s => emit (.stats c.toNat (t.stat + 4 * x.2) (statsRecord t x.1)) s) s
          let s := forEach (items.filter (fun i => !i.toMem)) (fun i s =>
            pushEntry (0x60 + c.toNat) (srcPack c.toNat) i.id (freeField s) (containerWords i.block) s) s
          let parts := (items.filter PackItem.toMem).length
          let s := opMore r.by_ parts s
          drainQueue c.toNat (opDone r.by_ 1 s)

/-! ## Scale vectors and save areas (R92, R105, R215) -/

/-- R92: block b of a scale vector. -/
def vectorBlock (cl : Cluster) (d b : Nat) : Block :=
  blockOf ((List.range 128).flatMap (fun i =>
    let k := 128 * b + i
    toBytes 2 (if k < tdNent d then (tget .cleared cl.scale ((tdEntry0 d + k) % 2048)).val.toNat else 0)))

/-- R105: block b of a scale save area: four records. -/
def scaleBlock (window : Nat) (cl : Cluster) (d b : Nat) : Block :=
  blockOf ((List.range 4).flatMap (fun i =>
    let k := 4 * b + i
    if k < tdNent d then saveRecord window (tget .cleared cl.scale ((tdEntry0 d + k) % 2048)) else List.replicate 64 0))

/-- Table 8.8. -/
def stateBlock (t : Tile) (tenant : Nat) : Block :=
  blockOf (toBytes 4 (t.base % 2 ^ 20) ++ toBytes 2 t.cols ++ [t.rows, twos 8 t.xt] ++ toBytes 4 t.stride
    ++ [b2n t.poison + 2 * b2n t.sat, tenant] ++ toBytes 2 (ceilDiv (t.rows * t.cols) 32) ++ List.replicate 240 0)

/-- R215: accumulator block b of a tile; a touched accumulator's word comes from the scratchpad (free values from `n` on). -/
def saveAccBlock (t : Tile) (n b : Nat) : Block :=
  wordsBlock ((List.range 32).map (fun i =>
    let k := 32 * b + i
    if k < t.rows * t.cols && (t.keep || bitAt t.touched k) then (Config.spadWord (n + k)).toNat else 0))

/-- Write consecutive blocks of an area; each is one part of the operation r. -/
def writeBlocks (c src op d : Nat) (blocks : List Block) (r : OpRef) (s : State) : State :=
  forEach blocks.zipIdx (fun b s => sendWrite c src op (curStream s c) (curTenant s c) d b.2 b.1 false r s) s

/-- SVEC, SCSAVE, SAVE: open the operation and write the blocks. -/
def saveBlocks (c src op d : Nat) (blocks : List Block) (s : State) : State :=
  writeBlocks c src op d blocks (opNext c s) (opOpen c blocks.length s)

/-- R105: restored entries of block b; `ok` false discards the records (R257). -/
def restoreScale (c entry0 nent tseq : Nat) (base : Int) (qmax b : Nat) (data : Block) (ok : Bool) (s : State) : State :=
  let bytes := blockBytes data
  let one (t : Tab ScaleEntry) (i : Nat) : Tab ScaleEntry :=
    let k := 4 * b + i
    if k < nent then
      tset .cleared t ((entry0 + k) % 2048) (if ok then restoreRecord tseq base qmax ((bytes.drop (64 * i)).take 64) else .cleared)
    else t
  modCl c (fun cl => { cl with scale := (List.range 4).foldl one cl.scale }) s

/-- R216: what a restore block does: block 0 is the state block, block b + 1 holds 32 accumulators. -/
def restoreTile (c uid b : Nat) (data : Block) (ok : Bool) (s : State) : State :=
  match tileByUid (getCl s c) uid with
  | none => s
  | some (_, t) =>
    let l := blockBytes data
    if b == 0 then
      if ok then
        let fl := nth 0 l 12
        let foreign := nth 0 l 13 != t.tenant
        let s := modTile c uid (fun t => { t with xt := sint 8 (nth 0 l 7), poison := t.poison || fl % 2 == 1 || foreign, sat := fl / 2 % 2 == 1 }) s
        if foreign then
          raise { source := BitVec.ofNat 12 (srcMerge c), cls := .contained, access := 5, op := 0x1C, stream := BitVec.ofNat 10 t.stream,
                  tenant := BitVec.ofNat 8 t.tenant } s
        else s
      else poisonTile c uid s
    else
      let words := (List.range 32).map (fun i => BitVec.ofNat 64 (fld data.toNat (64 * i) 64))
      let k := 32 * (b - 1)
      let n := min 32 (t.rows * t.cols - k)
      let s := forEach (List.range n) (fun i s =>
        emit (.spadWrite c (t.index ((k + i) / t.cols) ((k + i) % t.cols)) [nth 0 words i]) s) s
      if ok then s else poisonTile c uid s

end Sys2Proof.Machine
end

