-- ==== Sys2Proof/Machine/PlanImage.lean ====
section
/-! DEFINITION. The plan image (09): reading its parts (R237), the checks of Table 9.10 with the locations of Table 9.15, the
cluster map (R243), the stretch groups (R242). -/

namespace Sys2Proof.Machine

/-! ## Reading the image (R237, Table 9.8) -/

/-- The image as one little-endian number. -/
def imageNum (l : List Block) : Nat := l.foldr (fun b a => b.toNat + 2 ^ 2048 * a) 0

/-- `n` bytes at byte offset `off` of the image. -/
def imgAt (v off n : Nat) : Nat := fld v (8 * off) (8 * n)

def hdNclust (v : Nat) : Nat := imgAt v 6 1
def hdAutoTwin (v : Nat) : Bool := bitAt (imgAt v 7 1) 1
def hdFrameLen (v : Nat) : Nat := imgAt v 8 4
def hdPlanId (v : Nat) : Nat := imgAt v 12 4
def hdCount (v i : Nat) : Nat := imgAt v (16 + 2 * i) 2
def hdOffset (v i : Nat) : Nat := imgAt v (24 + 4 * i) 4
def hdRing (v : Nat) : Nat := imgAt v 48 8
def hdRingLog (v : Nat) : Nat := imgAt v 56 1

/-- Sequencer directory entry s: slot table offset, slot count, program offset, program words. -/
structure DirEntry where
  slotOff : Nat
  slots : Nat
  progOff : Nat
  words : Nat
  rest : Nat
  deriving DecidableEq, Repr

def dirEntry (v s : Nat) : DirEntry :=
  let o := hdOffset v 4 + 16 * s
  { slotOff := imgAt v o 4, slots := imgAt v (o + 4) 2, progOff := imgAt v (o + 8) 4, words := imgAt v (o + 12) 2,
    rest := imgAt v (o + 6) 2 + imgAt v (o + 14) 2 }

/-- R237: the end of the image's furthest part, rounded up to 256 bytes. -/
def imageLength (v : Nat) : Nat :=
  let ends := [256, hdOffset v 0 + 32 * hdCount v 0, hdOffset v 1 + 16 * hdCount v 1, hdOffset v 2 + 16 * hdCount v 2,
    hdOffset v 3 + 32 * hdCount v 3, hdOffset v 4 + 1024, hdOffset v 5 + 256]
  let part (d : DirEntry) : Nat :=
    max (if d.slots = 0 then 0 else d.slotOff + 16 * d.slots) (if d.words = 0 then 0 else d.progOff + 8 * d.words)
  ceilDiv (((List.range 64).map (fun s => part (dirEntry v s)) ++ ends).foldl max 0) 256 * 256

/-- The image's parts as the plan master holds them. `base` is PLAN_ADDR. -/
def parseImage (base : Nat) (v : Nat) : Image :=
  let tab (i size : Nat) : List Nat := (List.range (hdCount v i)).map (fun k => imgAt v (hdOffset v i + size * k) size)
  let len := imageLength v
  { base := base, length := len, header := BitVec.ofNat 2048 (imgAt v 0 256)
    tensors := (tab 0 32).map (BitVec.ofNat 256), tiles := (tab 1 16).map (BitVec.ofNat 128)
    flicks := (tab 2 16).map (BitVec.ofNat 128), transfers := (tab 3 32).map (BitVec.ofNat 256)
    stretch := (List.range 32).map (fun k => BitVec.ofNat 64 (imgAt v (hdOffset v 5 + 8 * k) 8))
    seqs := (List.range 64).map (fun s =>
      let d := dirEntry v s
      { slots := (List.range d.slots).map (fun i => BitVec.ofNat 128 (imgAt v (d.slotOff + 16 * i) 16))
        prog := (List.range d.words).map (fun i => BitVec.ofNat 64 (imgAt v (d.progOff + 8 * i) 8)) })
    digest := digestNum (sha384 (toBytes len v)) }

def Image.num (im : Image) : Nat := im.header.toNat
def Image.nclust (im : Image) : Nat := hdNclust im.num
def Image.frameLen (im : Image) : Nat := hdFrameLen im.num
def Image.planId (im : Image) : Nat := hdPlanId im.num
def Image.ring (im : Image) : Nat := hdRing im.num
def Image.ringLog (im : Image) : Nat := hdRingLog im.num
def Image.autoTwin (im : Image) : Bool := hdAutoTwin im.num

/-! ## Locations (Table 9.15) -/

def locWord (s i : Nat) : Nat := s * 2 ^ 24 + i
def locSlot (s i : Nat) : Nat := s * 2 ^ 24 + 2 ^ 23 + i
def locItem (kind i : Nat) : Nat := kind * 2 ^ 24 + i

/-- The first location at which some test fails. -/
def firstBad {α : Type} (l : List α) (bad : α → Bool) (loc : α → Nat) : Option Nat := (l.find? bad).map loc

/-- The first failing of several tests in order. -/
def firstOf : List (Option Nat) → Option Nat
  | [] => none
  | some x :: _ => some x
  | none :: r => firstOf r

/-- The numbered sequencer images of a plan. -/
def Image.numbered (im : Image) : List (SeqImage × Nat) := im.seqs.zipIdx

/-- A test of every program word of every sequencer: arguments are the sequencer, the word index, its instruction. -/
def forWords (im : Image) (bad : Nat → Nat → Instr → Bool) : Option Nat :=
  firstOf (im.numbered.map (fun q => firstBad q.1.prog.zipIdx
    (fun w => match decodeWalk (BitVec.ofNat 6 q.2) w.1 with | some i => bad q.2 w.2 i | none => false)
    (fun w => locWord q.2 w.2)))

/-- A test of every slot entry. -/
def forSlots (im : Image) (bad : Nat → SeqImage → Nat → Nat → Bool) : Option Nat :=
  firstOf (im.numbered.map (fun q => firstBad q.1.slots.zipIdx (fun e => bad q.2 q.1 e.2 e.1.toNat) (fun e => locSlot q.2 e.2)))

/-- A test of every entry of a table. -/
def forTable {n : Nat} (kind : Nat) (l : List (BitVec n)) (bad : Nat → Bool) : Option Nat :=
  firstBad l.zipIdx (fun d => bad d.1.toNat) (fun d => locItem kind d.2)

/-! ## Check 0x01: the header, the sizes, the region -/

/-- Table 9.1: slot entries and program words of a sequencer's bank. -/
def bankSlots (s : Nat) : Nat := if s < 32 then 1024 else if s < 48 then 512 else 256
def bankWords (s : Nat) : Nat := if s < 32 then 8192 else if s < 48 then 2048 else 1024

/-- R251, R237: the image's blocks lie within one privileged region of FMT 0x40. -/
def privRaw (s : State) (a len : Nat) : Bool :=
  match privRegionOf s a with
  | some r => let e := regionEntry s r; rgFmt e == 0x40 && decide (a + len ≤ rgBase e + rgSize e)
  | none => false

def check01 (s : State) (base v : Nat) : Option Nat :=
  let h (o : Nat) (bad : Bool) : Option Nat := if bad then some (locItem 0xF0 o) else none
  let big (n m o : Nat) : Option Nat := h o (decide (m < n))
  firstOf
    ([ h 0 (imgAt v 0 4 != 0x4B4C4157), h 4 (imgAt v 4 2 != 1), h 6 (hdNclust v == 0 || decide (nClusters s.hw < hdNclust v)),
       h 8 (hdFrameLen v == 0 || hdFrameLen v % 15 != 0 || decide (268435440 < hdFrameLen v)),
       big (hdCount v 0) 4096 16, big (hdCount v 1) 4096 18, big (hdCount v 2) 256 20, big (hdCount v 3) 1024 22 ]
     ++ (List.range 6).map (fun i => h (24 + 4 * i) (hdOffset v i % 256 != 0))
     ++ [ h 56 (decide (hdRingLog v < 4) || decide (12 < hdRingLog v)) ]
     ++ (List.range 49).map (fun q =>
          let d := dirEntry v q
          if bankSlots q < d.slots || bankWords q < d.words then some (locItem 0xF5 q) else none)
     ++ [ h 0 (decide (2 ^ 26 < imageLength v)), h 0 (base % 256 != 0 || !privRaw s base (imageLength v)) ])

/-! ## Check 0x02: opcodes and reserved fields -/

def check02 (im : Image) (v : Nat) : Option Nat :=
  firstOf
    [ firstBad (List.range 256) (fun o => (o == 7 && imgAt v 7 1 / 4 != 0) || (57 ≤ o && imgAt v o 1 != 0)) (locItem 0xF0),
      forTable 0xF1 im.tensors (fun d => fld d 0 71 != 0),
      forTable 0xF2 im.tiles (fun d => fld d 0 31 != 0),
      forTable 0xF3 im.flicks (fun d => fld d 0 19 != 0),
      forTable 0xF4 im.transfers (fun d => fld d 0 193 != 0),
      firstBad (List.range 64) (fun q => (dirEntry v q).rest != 0) (locItem 0xF5),
      forSlots im (fun _ _ _ e => fld e 0 36 != 0 || decide (1 < slotKind e)),
      firstOf (im.numbered.map (fun q => firstBad q.1.prog.zipIdx
        (fun w => (decodeWalk (BitVec.ofNat 6 q.2) w.1).isNone) (fun w => locWord q.2 w.2))) ]

/-! ## Check 0x03: descriptor indices and field ranges -/

/-- The descriptor indices an instruction names lie below the counts. -/
def indexBad (im : Image) (i : Instr) : Bool :=
  let t (d : BitVec 12) : Bool := decide (im.tensors.length ≤ d.toNat)
  let x (d : BitVec 12) : Bool := decide (im.transfers.length ≤ d.toNat)
  match i with
  | .fetch _ _ d _ _ _ => t d
  | .xpw _ _ d _ _ _ _ _ _ _ => t d
  | .xpa _ _ d _ _ _ _ _ => t d
  | .flick _ _ _ _ fd _ _ _ => decide (im.flicks.length ≤ fd.toNat)
  | .topen _ _ td m => decide (im.tiles.length ≤ td.toNat)
      || (m == 2 && decide (im.tensors.length ≤ tlFar (nth 0 im.tiles td.toNat).toNat))
  | .pack _ _ _ d _ _ _ _ _ _ => t d
  | .svec _ d vd => t d || t vd
  | .save _ _ d => t d
  | .restore _ _ d td => t d || decide (im.tiles.length ≤ td.toNat)
  | .scsave _ d sd => t d || t sd
  | .screst _ d sd => t d || t sd
  | .send _ _ xd _ _ _ => x xd
  | .recv _ _ xd _ _ _ => x xd
  | .chorus _ _ xd _ _ _ => x xd
  | _ => false

/-- Table 9.4: field values of a tensor descriptor within their ranges. -/
def tensorBad (d : Nat) : Bool :=
  let f := fmtOf (tdFormat d)
  decide (1 < tdKind d) || tdBase d % 256 != 0 || decide (2048 < tdNent d) || decide (2048 < tdEntry0 d + tdNent d)
  || (if tdKind d == 1 then tdFormat d != 0 || tdGpo d != 0
      else match f with
        | none => true
        | some f => if f.isWeight then tdGpo d == 0 else tdGpo d != 0)

/-- Table 9.6. -/
def flickBad (n d : Nat) : Bool :=
  fdNcount d == 0 || decide (n ≤ fdGdesc d) || decide (n ≤ fdAdesc d) || fdAcnt d == 0 || fdGcnt d == 0 || decide (10 < fdGcnt d)

/-- Table 9.7. -/
def transferBad (n d : Nat) : Bool :=
  decide (5 < xdKind d) || ((xdKind d == 3 || xdKind d == 5) && decide (n ≤ xdDesc d)) || (xdKind d != 5 && xdCexp d != 0)

def check03 (im : Image) : Option Nat :=
  let n := im.tensors.length
  firstOf
    [ forTable 0xF1 im.tensors tensorBad, forTable 0xF2 im.tiles (fun d => tlFar d != 0 && decide (n ≤ tlFar d)),
      forTable 0xF3 im.flicks (flickBad n), forTable 0xF4 im.transfers (transferBad n), forWords im (fun _ _ i => indexBad im i) ]

/-! ## Check 0x04: instructions on their sequencers -/

/-- Table 9.2: 0 cluster, 1 link port, 2 plan master, 3 no sequencer (check 0x0D). -/
def seqKind (q : Nat) : Nat := if q < 32 then 0 else if q < 48 then 1 else if q = 48 then 2 else 3

/-- Table 9.2, column Seq. -/
def permitted (kind : Nat) (i : Instr) : Bool :=
  match i with
  | .endProg _ | .nop _ | .waitt _ _ | .waitd _ _ _ | .sig _ _ | .loop _ _ _ | .xop _ _ _ _ => true
  | .step _ => kind == 2 || kind == 3
  | .send .. | .recv .. | .chorus .. => kind == 1 || kind == 3
  | _ => kind == 0 || kind == 3

/-- R240: what a test entry's program may contain. -/
def permittedInTest (i : Instr) : Bool :=
  match i with
  | .endProg _ | .nop _ | .waitt _ _ | .waitd _ _ _ | .sig _ _ | .loop _ _ _ | .xop _ _ _ _ | .dmark .. | .fetch .. | .xpw ..
  | .xpa .. => true
  | _ => false

/-- Word index of the first word of a program, from `e` on, that a test entry may not contain; its END ends the search. -/
def testProgramBad (q : Nat) : List Word → Nat → Option Nat
  | [], _ => none
  | w :: r, i =>
    match decodeWalk (BitVec.ofNat 6 q) w with
    | some (.endProg _) => none
    | some x => if permittedInTest x then testProgramBad q r (i + 1) else some i
    | none => none

def check04 (im : Image) : Option Nat :=
  firstOf
    [ forWords im (fun q _ i => !permitted (seqKind q) i),
      firstOf (im.numbered.map (fun q =>
        if q.2 == 48 then none
        else firstOf (q.1.slots.map (fun e =>
          if slotKind e.toNat == 1 && slotEntry e.toNat != 0x1FFF then
            (testProgramBad q.2 (q.1.prog.drop (slotEntry e.toNat)) (slotEntry e.toNat)).map (locWord q.2)
          else none)))) ]

/-! ## Check 0x05: loops, END, ENTRY (R232) -/

/-- Loop lengths of a program by word: 0 where the word is no LOOP. -/
def loopLengths (q : Nat) (l : List Word) : List Nat :=
  l.map (fun w => match decodeWalk (BitVec.ofNat 6 q) w with | some (.loop _ _ n) => n.toNat | _ => 0)

/-- Scan from word `i` with the ends of the open bodies, innermost first. -/
def loopsBad (len : Nat) : List Nat → Nat → List Nat → Option Nat
  | [], _, _ => none
  | n :: r, i, ends =>
    let ends := ends.dropWhile (fun e => decide (e < i))
    if n = 0 then loopsBad len r (i + 1) ends
    else if len ≤ i + n || (match ends with | e :: _ => decide (e < i + n) | [] => false) || 4 ≤ ends.length then some i
    else loopsBad len r (i + 1) ((i + n) :: ends)

def check05 (im : Image) : Option Nat :=
  firstOf
    [ firstOf (im.numbered.map (fun q => (loopsBad q.1.prog.length (loopLengths q.2 q.1.prog) 0 []).map (locWord q.2))),
      firstOf (im.numbered.map (fun q => match q.1.prog.getLast? with
        | some w => if w == 0 then none else some (locWord q.2 (q.1.prog.length - 1))
        | none => none)),
      forSlots im (fun _ si _ e => slotEntry e != 0x1FFF && decide (si.prog.length ≤ slotEntry e)) ]

/-! ## Check 0x06: prefixes -/

/-- R225, R232: GATE before FETCH, XPW or XPA, DMARK before XPW, neither the last word of a loop body. -/
def prefixesBad (q : Nat) (l : List Word) : Option Nat :=
  let is := l.map (decodeWalk (BitVec.ofNat 6 q))
  let ends := (loopLengths q l).zipIdx.filterMap (fun p => if p.1 = 0 then none else some (p.2 + p.1))
  firstBad is.zipIdx (fun p =>
    let next := (is[p.2 + 1]?).getD none
    match p.1 with
    | some (.gate ..) =>
      ends.contains p.2 || (match next with | some (.fetch ..) => false | some (.xpw ..) => false | some (.xpa ..) => false | _ => true)
    | some (.dmark ..) => ends.contains p.2 || (match next with | some (.xpw ..) => false | _ => true)
    | _ => false) (fun p => locWord q p.2)

def check06 (im : Image) : Option Nat := firstOf (im.numbered.map (fun q => prefixesBad q.2 q.1.prog))

/-! ## Checks 0x07 and 0x08: slots and test slots (R238, R240) -/

/-- The plan master's test slots: START, end. -/
def testSlots (im : Image) : List (Nat × Nat) :=
  match im.seqs[48]? with
  | some si => si.slots.filterMap (fun e =>
      if slotKind e.toNat == 1 then some (slotStart e.toNat, slotStart e.toNat + slotLength e.toNat) else none)
  | none => []

def check07 (im : Image) : Option Nat :=
  let tests := testSlots im
  forSlots im (fun q si i e =>
    let a := slotStart e
    let b := a + slotLength e
    let before := match i with | 0 => 0 | k + 1 => let p := (nth 0 si.slots k).toNat; slotStart p + slotLength p
    a % 15 != 0 || slotLength e % 15 != 0 || decide (im.frameLen < b) || decide (a < before)
    || (slotKind e == 0 && tests.any (fun t => decide (a < t.2) && decide (t.1 < b)))
    || (slotKind e == 1 && q != 48 && !tests.any (fun t => decide (t.1 ≤ a) && decide (b ≤ t.2)))
    || (slotKind e == 1) != (slotClass e == 3))

/-- R240, R248: spacing, counted across the frame boundary, and length at least TEST_SLOT_MIN as the load captured it. -/
def check08 (s : State) (im : Image) : Option Nat :=
  let t := testSlots im
  let minLen := s.plan.stagedCfg.testSlotMin
  match im.seqs[48]?, t with
  | some si, first :: _ =>
    let gap (k : Nat) : Nat := match t[k]?, t[k + 1]? with
      | some a, some b => b.1 - a.1
      | some a, none => first.1 + im.frameLen - a.1
      | _, _ => 0
    let idx := si.slots.zipIdx.filterMap (fun e => if slotKind e.1.toNat == 1 then some e.2 else none)
    firstBad (t.zipIdx) (fun x => decide (x.1.2 - x.1.1 < minLen) || decide (30000000 < gap x.2)) (fun x => locSlot 48 (nth 0 idx x.2))
  | _, _ => some (locSlot 48 0)

/-! ## Check 0x09: formats (R64, R71, R151, R157) -/

/-- The format of a tensor descriptor of containers. -/
def planFmt (im : Image) (d : Nat) : Option Fmt :=
  let v := (nth 0 im.tensors d).toNat
  if tdKind v == 0 then fmtOf (tdFormat v) else none

def isW (f : Option Fmt) : Bool := match f with | some f => f.isWeight | none => false
def isA (f : Option Fmt) : Bool := match f with | some f => f.isAct | none => false

/-- What the scan of a program holds: each open tile's weight format, the tiles whose last XPA loaded no key row, the formats last
loaded into the key rows. -/
structure FmtScan where
  weights : Tab Nat
  direct : List Nat
  key0 : Option Nat
  key1 : Option Nat
  deriving DecidableEq, Repr

/-- R151, Table 6.3: the structured path's operands: WS24, WS24T, WB8 or WB16, and AS24 in both key rows, the tile's last XPA being one
that loaded a key row. -/
def structuredOk (z : FmtScan) (tile code : Nat) : Bool :=
  decide (4 ≤ code) && decide (code ≤ 7) && z.key0 == some 0x12 && z.key1 == some 0x12 && !z.direct.contains tile

/-- One instruction of the scan: whether it is refused, and the scan after it. A RESTORE of a tile number begins another tile, as a TOPEN
does: R157 does not say (log 178). -/
def fmtStep (im : Image) (z : FmtScan) (i : Instr) : Bool × FmtScan :=
  match i with
  | .topen _ t _ _ => (false, { z with weights := tdel z.weights t.toNat, direct := z.direct.filter (· != t.toNat) })
  | .restore _ t _ _ => (false, { z with weights := tdel z.weights t.toNat, direct := z.direct.filter (· != t.toNat) })
  | .xpa _ _ d _ _ t _ dest =>
    let f := planFmt im d.toNat
    let c := f.map (·.code)
    let others := z.direct.filter (· != t.toNat)
    (!isA f,
     if dest == 1 then { z with key0 := c, direct := others }
     else if dest == 2 then { z with key1 := c, direct := others }
     else { z with direct := t.toNat :: others })
  | .xpw _ _ d _ _ t path tr _ _ =>
    let f := planFmt im d.toNat
    let c := match f with | some f => f.code | none => 0
    let other := match z.weights.find? (fun e => e.1 == t.toNat) with | some e => e.2 != c | none => false
    (!isW f || other || (tr && c != 0x05) || (path == 1 && !structuredOk z t.toNat c),
     { z with weights := tins z.weights t.toNat c })
  | .flick _ _ _ _ fd _ _ _ =>
    let v := (nth 0 im.flicks fd.toNat).toNat
    (!isW (planFmt im (fdGdesc v)) || !isA (planFmt im (fdAdesc v)), z)
  | .pack _ _ _ d _ _ _ _ _ _ => ((planFmt im d.toNat).isNone, z)
  | _ => (false, z)

/-- The first word of a program that the scan refuses. What lies "within one tile" (R157) and which key rows a structured XPW finds (R151)
is read in the order of the program's words: the spec does not say how the check follows loops and slots (log 145). -/
def fmtScan (im : Image) (q : Nat) : List Word → Nat → FmtScan → Option Nat
  | [], _, _ => none
  | w :: r, k, z =>
    match decodeWalk (BitVec.ofNat 6 q) w with
    | some i => let o := fmtStep im z i; if o.1 then some k else fmtScan im q r (k + 1) o.2
    | none => fmtScan im q r (k + 1) z

def check09 (s : State) (im : Image) : Option Nat :=
  firstOf
    [ firstOf (im.numbered.map (fun q =>
        (fmtScan im q.2 q.1.prog 0 { weights := [], direct := [], key0 := none, key1 := none }).map (locWord q.2))),
      forTable 0xF4 im.transfers (fun x => xdKind x == 5 && xdPeer x == instanceId s
        && (let d := (nth 0 im.tensors (xdDesc x)).toNat; tdKind d == 0 && tdFormat d != 0x20)) ]

/-! ## Checks 0x0A and 0x0B: tiles and flick ranges -/

def check0A (im : Image) : Option Nat :=
  forTable 0xF2 im.tiles (fun d =>
    decide (4096 < tlRows d * tlCols d) || decide (8192 < tlDecl d)
    || decide (2 ^ 19 ≤ tlBase d % 2 ^ 19 + (tlRows d - 1) * tlStride d + tlCols d - 1))

def check0B (im : Image) : Option Nat :=
  forTable 0xF3 im.flicks (fun d =>
    decide (8192 < fdNcount d)
    || (match planFmt im (fdAdesc d) with | some f => decide (8192 < fdAcnt d * f.cap) | none => false))

/-! ## Check 0x0C: regions (R237, R251, R255) -/

def tensorPlaced (s : State) (d : Nat) : Bool :=
  let e := regionEntry s (tdRgn d)
  rgValid e && rgBase e ≤ tdBase d && tdBase d + 256 * tdLen d ≤ rgBase e + rgSize e && tdTenant d == rgTenant e
  && (if tdKind d == 1 then rgPriv e && 0x40 ≤ rgFmt e && rgFmt e ≤ 0x42 else fmtAdmits (rgFmt e) (.container (tdFormat d)))

/-- A raw far or chorus target lies in an add-target region. -/
def addPlaced (s : State) (d : Nat) : Bool :=
  tdKind d != 1 || (let f := rgFmt (regionEntry s (tdRgn d)); f == 0x41 || f == 0x42)

def check0C (s : State) (im : Image) : Option Nat :=
  let td (i : Nat) : Nat := (nth 0 im.tensors i).toNat
  firstOf
    [ forTable 0xF1 im.tensors (fun d => !tensorPlaced s d),
      forWords im (fun _ _ i => match i with
        | .topen _ _ t m => m == 2 && !addPlaced s (td (tlFar (nth 0 im.tiles t.toNat).toNat))
        | _ => false),
      forTable 0xF4 im.transfers (fun x => xdKind x == 5 && xdPeer x == instanceId s && !addPlaced s (td (xdDesc x))),
      if privRaw s im.ring (16 * 2 ^ im.ringLog) then none else some (locItem 0xF7 0) ]

/-! ## Check 0x0D: units of the configuration (R9, R237) -/

def check0D (s : State) (im : Image) (v : Nat) : Option Nat :=
  let n := im.nclust
  firstOf
    [ firstBad (List.range 64) (fun q =>
        let d := dirEntry v q
        (decide (49 ≤ q) || !seqExists s.hw q || (decide (n ≤ q) && decide (q < 32)))
          && (d.slots != 0 || d.words != 0 || d.slotOff != 0 || d.progOff != 0)) (locItem 0xF5),
      forTable 0xF4 im.transfers (fun x => decide (nPorts s.hw ≤ xdPort x) || decide (n ≤ xdCluster x)),
      forWords im (fun _ _ i => match i with
        | .pack _ _ _ _ _ _ _ _ li p => li && decide (nPorts s.hw ≤ p.toNat)
        | _ => false),
      firstBad im.stretch.zipIdx (fun m =>
        (decide (n ≤ m.2) && m.1 != 0) || (List.range 64).any (fun q => bitAt m.1.toNat q && (decide (49 ≤ q) || !seqExists s.hw q)))
        (fun m => locItem 0xF6 m.2) ]

/-! ## Checks marked A, the cluster map (R243), the stretch groups (R242) -/

/-- R243: the physical clusters not fenced, ascending; one whose fence was lifted returns with the activation (R363). -/
def freeClusters (s : State) : List Nat :=
  (List.range (nClusters s.hw)).filter (fun c => !(getCl s c).fenced || (getCl s c).fenceKept)

def check0E (s : State) (im : Image) : Option Nat :=
  if (freeClusters s).length < im.nclust then some (locItem 0xF0 6) else none

/-- Slots `n` from `slot` touch a fenced bank. -/
def runFenced (c : Cluster) (slot n : Nat) : Bool := (List.range (min n 64)).any (fun k => slotFenced c (runSlot slot k))

/-- R117: the slot runs that an instruction names, by logical cluster; index registers counted as zero. -/
def slotRuns (im : Image) (q : Nat) (i : Instr) : List (Nat × Nat × Nat) :=
  let tr (xd : BitVec 12) (slot : BitVec 14) (cnt : BitVec 10) : List (Nat × Nat × Nat) :=
    let x := (nth 0 im.transfers xd.toNat).toNat
    if xdKind x == 0 || xdKind x == 2 then [(xdCluster x, slot.toNat, cnt.toNat + 1)] else []
  match i with
  | .fetch _ _ _ _ slot cnt => [(q, slot.toNat, cnt.toNat + 1)]
  | .xpw _ _ _ slot cnt _ _ _ _ _ => [(q, slot.toNat, cnt.toNat + 1)]
  | .xpa _ _ _ slot cnt _ _ _ => [(q, slot.toNat, cnt.toNat + 1)]
  | .flick _ _ _ _ fd a g rows =>
    let d := (nth 0 im.flicks fd.toNat).toNat
    [(q, a.toNat, (rows.toNat + 1) * fdAcnt d), (q, g.toNat, fdNcount d * fdGcnt d)]
  | .send _ _ xd cnt slot _ => tr xd slot cnt
  | .recv _ _ xd cnt slot _ => tr xd slot cnt
  | .chorus _ _ xd cnt slot _ => tr xd slot cnt
  | _ => []

def check0F (s : State) (im : Image) : Option Nat :=
  let map := freeClusters s
  forWords im (fun q _ i => (slotRuns im q i).any (fun r => match map[r.1]? with
    | some p => runFenced (getCl s p) r.2.1 r.2.2
    | none => false))

/-- The checks marked A, in order: code and location of the first that fails. -/
def activationFail (s : State) (im : Image) : Option (Nat × Nat) :=
  match check0E s im with
  | some l => some (0x0E, l)
  | none => (check0F s im).map (fun l => (0x0F, l))

/-- The checks of Table 9.10 in order: code and location of the first that fails. -/
def loadFail (s : State) (base v : Nat) (im : Image) : Option (Nat × Nat) :=
  match check01 s base v with
  | some l => some (1, l)
  | none =>
    let cs := [ (2, check02 im v), (3, check03 im), (4, check04 im), (5, check05 im), (6, check06 im), (7, check07 im),
      (8, check08 s im), (9, check09 s im), (10, check0A im), (11, check0B im), (12, check0C s im), (13, check0D s im v) ]
    match cs.find? (fun c => c.2.isSome) with
    | some (k, some l) => some (k, l)
    | _ => activationFail s im

/-- R242: end of the segment that a tick of the frame lies in, and its start. -/
def segmentOf (im : Image) (t : Nat) : Nat × Nat :=
  let ts := testSlots im
  let start := ts.foldl (fun a x => if x.2 ≤ t then max a x.2 else a) 0
  let stop := ts.foldl (fun a x => if t < x.1 then min a x.1 else a) im.frameLen
  (start, stop)

/-- R241: the stretched START and LENGTH of a slot. -/
def stretchSlot (im : Image) (a l : Nat) : Nat × Nat :=
  let g := (segmentOf im a).1
  (g + (a - g) * 16 / 15, l * 16 / 15)

/-- R241: a stretched slot-relative tick. -/
def stretchTick (t : Nat) : Nat := ceilDiv (16 * t) 15

/-- R242: every slot of the sequencers of a mask still ends within its segment. -/
def stretchSafe (im : Image) (mask : Nat) : Bool :=
  im.numbered.all (fun q => !bitAt mask q.2 || q.1.slots.all (fun e =>
    slotKind e.toNat == 1 ||
    (let r := stretchSlot im (slotStart e.toNat) (slotLength e.toNat)
     decide (r.1 + r.2 ≤ (segmentOf im (slotStart e.toNat)).2))))

/-- NO_STRETCH. -/
def noStretchMask (im : Image) : Nat := maskOf 32 (fun l => !stretchSafe im (nth 0 im.stretch l).toNat)

end Sys2Proof.Machine
end

