-- ==== Sys2Proof/Machine/Sequencer.lean ====
section
/-! DEFINITION. Stream sequencers (09): when a walk instruction issues (R227 to R232), overruns (R239), and the control
instructions. -/

namespace Sys2Proof.Machine

/-! ## Units and overruns -/

/-- Table 9.2, column Unit. -/
inductive WUnit where
  | free | fr | ln | lk
  deriving DecidableEq, Repr

def Seq.hold (sq : Seq) : WUnit → Nat
  | .free => 0
  | .fr => sq.holdFr
  | .ln => sq.holdLn
  | .lk => sq.holdLk

def Seq.setHold (sq : Seq) (u : WUnit) (t : Nat) : Seq :=
  match u with
  | .free => sq
  | .fr => { sq with holdFr := t }
  | .ln => { sq with holdLn := t }
  | .lk => { sq with holdLk := t }

/-- R239, R246: the slot in progress reports OVERRUN; OVERRUNS counts it once. -/
def markOverrun (q : Nat) (s : State) : State :=
  let sq := getSeq s q
  if sq.overrun || !sq.running then s else bump (key 0x2413 (q + 1)) 1 (setSeq q { sq with overrun := true } s)

/-! ## Issue (R227) -/

/-- The planned issue tick of the next instruction: it depends on the program alone. -/
def Seq.planned (sq : Seq) (u : WUnit) : Nat :=
  max (match sq.lastTick with | some t => t + 1 | none => 0) (max (sq.hold u) (match sq.waitTarget with | some t => t | none => 0))

/-- R241: the slot-relative tick a planned tick stands for. -/
def Seq.mapped (sq : Seq) (t : Nat) : Nat := if sq.stretched then stretchTick t else t

/-- The planned tick that a slot-relative tick after a slip stands for. -/
def Seq.unmapped (sq : Seq) (a : Nat) : Nat := if sq.stretched then (if a = 0 then 0 else 15 * (a - 1) / 16 + 1) else a

/-- R232: the program counter and the loop stack after the word at `pc`. -/
def advancePc (pc : Nat) : List LoopFrame → Nat × List LoopFrame
  | [] => (pc + 1, [])
  | f :: r =>
    if f.last = pc then (if 1 < f.left then (f.first, { f with left := f.left - 1 } :: r) else advancePc pc r)
    else (pc + 1, f :: r)

/-- R231: the doorbell a WAITD waits for has reached its count. -/
def bellOpen (s : State) (sq : Seq) : Bool :=
  match sq.waitBell with
  | none => true
  | some (db, v) => v ≤ tget 0 s.plan.bells db

/-- Table 9.2, column Unit, of an instruction. -/
def walkUnit : Instr → WUnit
  | .fetch _ _ _ _ _ _ | .restore _ _ _ _ | .screst _ _ _ => .fr
  | .xpw _ _ _ _ _ _ _ _ _ _ | .xpa _ _ _ _ _ _ _ _ | .flick _ _ _ _ _ _ _ _ => .ln
  | .send _ _ _ _ _ _ | .recv _ _ _ _ _ _ | .chorus _ _ _ _ _ _ => .lk
  | _ => .free

/-- R227: the unit accepts an instruction: lanes that wait for a container (R30) accept none. -/
def unitAccepts (s : State) (q : Nat) (u : WUnit) : Bool := match u with | .ln => !lanesWait s q | _ => true

/-- The sequencer's next word is this instruction and nothing holds it (R227, R231, R240, R369). -/
def canIssue (s : State) (q : Nat) (i : Instr) : Bool :=
  let sq := getSeq s q
  sq.running && !sq.suspended && !seqFenced s q && !s.faults.fatal && bellOpen s sq && slotEntry (slotBits s q) != 0x1FFF
  && unitAccepts s q (walkUnit i)
  && (match seqImage s q, encodeWalk i with
      | some si, some w => si.prog[sq.pc]? == some w
      | _, _ => false)

/-- The unit that the sequencer's next word needs. -/
def nextUnit (s : State) (q : Nat) : WUnit :=
  match seqImage s q with
  | some si =>
    match si.prog[(getSeq s q).pc]? with
    | some w => (match decodeWalk (BitVec.ofNat 6 q) w with | some i => walkUnit i | none => .free)
    | none => .free
  | none => .free

/-- Table 9.14 STATE. Of several reasons to wait a word shows the unit before the doorbell before the tick (log 181). -/
def seqStateCode (s : State) (q : Nat) : Nat :=
  let sq := getSeq s q
  let before (t : Nat) : Bool := decide (s.clock.tick < sq.start + sq.mapped t)
  if seqFenced s q then 7
  else if s.plan.testSlot then 5
  else if s.plan.mode = .paused then 6
  else if !sq.running then 0
  else if sq.waitUnit.isSome || !unitAccepts s q (nextUnit s q) || before (sq.hold (nextUnit s q)) then 3
  else if !bellOpen s sq then 4
  else if (match sq.waitTarget with | some t => before t | none => false) then 2
  else 1

/-- Table 9.14. -/
def seqStateWord (s : State) (q : Nat) : Nat :=
  let sq := getSeq s q
  put (seqStateCode s q) 60 4 + put sq.pc 47 13 + put sq.loops.length 44 3 + put sq.lastIssue 16 28 + put sq.slot 0 10

/-- The opcode of a walk instruction (Table 9.2), as OP of a record names it (R354). -/
def walkOpcode (i : Instr) : Nat := match encodeWalk i with | some w => fld w.toNat 58 6 | none => 0xFF

def Seq.setOp (sq : Seq) (u : WUnit) (op : Nat) : Seq :=
  match u with
  | .free => sq
  | .fr => { sq with opFr := op }
  | .ln => { sq with opLn := op }
  | .lk => { sq with opLk := op }

def Seq.op (sq : Seq) : WUnit → Nat
  | .free => 0xFF
  | .fr => sq.opFr
  | .ln => sq.opLn
  | .lk => sq.opLk

/-- R354: the walk instruction in progress on a unit of sequencer q, whose ceiling runs; 0xFF when none. -/
def opOn (s : State) (q : Nat) (u : WUnit) : Nat :=
  let sq := getSeq s q
  if sq.running && decide (s.clock.tick < sq.start + sq.mapped (sq.hold u)) then sq.op u else 0xFF

/-- The issue of one instruction: slip, ceiling, program counter, prefixes spent. -/
def issued (q : Nat) (u : WUnit) (ceil op : Nat) (s : State) : State :=
  let sq := getSeq s q
  let t := sq.planned u
  let a := sq.mapped t
  let now := s.clock.tick - sq.start
  let late := now - a
  let act := a + late
  let t' := if late = 0 then t else sq.unmapped act
  let p := advancePc sq.pc sq.loops
  bump (key 0x2412 (q + 1)) late
    (setSeq q { ((sq.setHold u (t' + ceil)).setOp u op) with
      lastTick := some t', lastIssue := act, waitTarget := none, waitBell := none, waitUnit := none, gate := none, dmark := none,
      pc := p.1, loops := p.2 } s)

/-- A walk instruction that never waits for its unit. -/
def walk (i : Instr) (q : Nat) (u : WUnit) (ceil : Nat) (body : State → State) (s : State) : State :=
  whenS (canIssue s q i) s fun s => body (issued q u ceil (walkOpcode i) s)

/-- An attempt that must wait: `late` for the surroundings (R30), one plan overrun that names the instruction; `held` for a held tile
(R210), PLAN_HAZARD once. -/
def awaitIssue (i : Instr) (q : Nat) (late held : Bool) (s : State) : State :=
  let sq := getSeq s q
  match sq.waitUnit with
  | none =>
    let s := setSeq q { sq with waitUnit := some (s.clock.tick, held) } s
    let s := if late then raiseOverrun q (seqSource q) (walkOpcode i) s else s
    if held then planHazard q (curStream s q) s else s
  | some (_, was) =>
    if held && !was then planHazard q (curStream s q) (setSeq q { sq with waitUnit := some (s.clock.tick, true) } s) else s

/-- A walk instruction that first waits while `late`. -/
def walkLate (i : Instr) (q : Nat) (u : WUnit) (ceil : Nat) (late : Bool) (body : State → State) (s : State) : State :=
  whenS (canIssue s q i) s fun s => if late then awaitIssue i q true false s else body (issued q u ceil (walkOpcode i) s)

/-- A walk instruction that first waits while `late` or `held`; HAZARD_CYCLES counts the ticks of the second wait as they pass (R210). -/
def walkWait (i : Instr) (q : Nat) (u : WUnit) (ceil : Nat) (late held : Bool) (body : State → State) (s : State) : State :=
  whenS (canIssue s q i) s fun s =>
    if late || held then awaitIssue i q late held s
    else body (issued q u ceil (walkOpcode i) s)

/-- R354: the walk instruction in progress on sequencer q: the program's next word, which it has not issued; 0xFF outside a slot. -/
def opNow (s : State) (q : Nat) : Nat :=
  let sq := getSeq s q
  if sq.running then
    (match seqImage s q with
     | some si => (match si.prog[sq.pc]? with | some w => fld w.toNat 58 6 | none => 0xFF)
     | none => 0xFF)
  else 0xFF

/-- The frame of every walk meaning: R226, "A sequencer never executes such a word" (one with a reserved value in a field);
any other word has its effect on a sequencer that exists. -/
def walkOutcome (i : Instr) (q : BitVec 6) (s : State) (f : State → State) : Host.Outcome State Fault Refusal :=
  if i.wf then guarded (seqExists s.hw q.toNat) s f else .fault .illFormed

/-! ## Control instructions (R225) -/

/-- R348, Table 14.4: ring records are counted by an object and written at its value modulo 32. -/
def postRing (count ring rec_ : Nat) (s : State) : State :=
  let n := obj s count
  bump count 1 (setObj (ring + n % 32) rec_ s)

/-- R348: a class C slot that reports OVERRUN posts its late-stage record at END. -/
def lateStage (q : Nat) (s : State) : State :=
  let sq := getSeq s q
  let b := slotBits s q
  if sq.overrun && slotKind b == 0 && slotClass b == 0 then
    let late := s.clock.tick - (sq.start + sq.length - 1)
    let r := put s.clock.time 64 64 + put (slotStream b) 54 10 + put (slotTenant b) 46 8 + put s.plan.frame 22 24
      + put sq.warm 18 4 + put (min late 262143) 0 18
    notify 5 0x2506 1 (postRing (key 0x2506 1) (key 0x2507 1) r s)
  else s

/-- R225, R239, R240: END ends the slot program and every open loop; a record is due where CPL is set, and a test entry has ended. -/
def endSlot (q : Nat) (s : State) : State :=
  let s := lateStage q s
  let sq := getSeq s q
  let due := if slotCpl (slotBits s q) && slotKind (slotBits s q) == 0 then
      sq.ended ++ [{ stream := slotStream (slotBits s q), tenant := slotTenant (slotBits s q), firstOp := sq.firstOp, upTo := sq.nextOp, overrun := sq.overrun
                     inFrame := sq.inFrame, yielded := sq.yielded }] else sq.ended
  let tests := if slotKind (slotBits s q) == 1 then s.clock.tick :: sq.testEnds else sq.testEnds
  setSeq q { sq with running := false, loops := [], ended := due, testEnds := tests, freeAt := s.clock.tick } s

/-- END. -/
def execEndProg (q : BitVec 6) (s : State) : Host.Outcome State Fault Refusal :=
  walkOutcome (.endProg q) q s (walk (.endProg q) q.toNat .free 0 (endSlot q.toNat))

/-- NOP. -/
def execNop (q : BitVec 6) (s : State) : Host.Outcome State Fault Refusal :=
  walkOutcome (.nop q) q s (walk (.nop q) q.toNat .free 1 id)

/-- WAITT: the next instruction issues at or after slot-relative tick T. -/
def execWaitt (q : BitVec 6) (t : BitVec 28) (s : State) : Host.Outcome State Fault Refusal :=
  walkOutcome (.waitt q t) q s (walk (.waitt q t) q.toNat .free 1 (modSeq q.toNat (fun sq => { sq with waitTarget := some t.toNat })))

/-- WAITD (R231): the next instruction is held until doorbell DB counts at least V. -/
def execWaitd (q db : BitVec 6) (v : BitVec 16) (s : State) : Host.Outcome State Fault Refusal :=
  walkOutcome (.waitd q db v) q s
    (walk (.waitd q db v) q.toNat .free 1 (modSeq q.toNat (fun sq => { sq with waitBell := some (db.toNat, v.toNat) })))

/-- SIG (R231). -/
def execSig (q db : BitVec 6) (s : State) : Host.Outcome State Fault Refusal :=
  walkOutcome (.sig q db) q s
    (walk (.sig q db) q.toNat .free 1 fun s =>
      settleSigs q.toNat (modSeq q.toNat (fun sq => { sq with sigs := sq.sigs ++ [(db.toNat, sq.firstOp, sq.nextOp)] }) s))

/-- LOOP (R232): the L words that follow run N times. -/
def execLoop (q : BitVec 6) (n : BitVec 16) (l : BitVec 13) (s : State) : Host.Outcome State Fault Refusal :=
  walkOutcome (.loop q n l) q s
    (walk (.loop q n l) q.toNat .free 1 fun t =>
      let pc := (getSeq s q.toNat).pc
      modSeq q.toNat (fun sq => { sq with
        pc := pc + 1, loops := { first := pc + 1, last := pc + l.toNat, left := n.toNat } :: (getSeq s q.toNat).loops }) t)

/-- XOP: REG := V, or REG := REG + V, modulo 2^20. -/
def execXop (q : BitVec 6) (reg : BitVec 2) (add : Bool) (v : BitVec 20) (s : State) : Host.Outcome State Fault Refusal :=
  walkOutcome (.xop q reg add v) q s
    (walk (.xop q reg add v) q.toNat .free 1 (modSeq q.toNat fun sq =>
      let new (x : BitVec 20) : BitVec 20 := if add then x + v else v
      if reg == 1 then { sq with x1 := new sq.x1 } else if reg == 2 then { sq with x2 := new sq.x2 } else { sq with x3 := new sq.x3 }))

/-- GATE (R230): the next instruction names neuron NBASE + NEURON of the pass. -/
def execGate (q : BitVec 6) (xsel : BitVec 2) (pass : BitVec 4) (neuron : BitVec 13) (s : State) :
    Host.Outcome State Fault Refusal :=
  walkOutcome (.gate q xsel pass neuron) q s
    (walk (.gate q xsel pass neuron) q.toNat .free 1 (modSeq q.toNat fun sq =>
      { sq with gate := some (pass.toNat, effective sq xsel 13 neuron.toNat) }))

/-- DMARK (R136): the next XPW folds its containers into digest slot DSLOT from ordinal ORD on. -/
def execDmark (q : BitVec 6) (xsel : BitVec 2) (dslot : BitVec 6) (ord : BitVec 20) (s : State) :
    Host.Outcome State Fault Refusal :=
  walkOutcome (.dmark q xsel dslot ord) q s
    (walk (.dmark q xsel dslot ord) q.toNat .free 1 (modSeq q.toNat fun sq =>
      { sq with dmark := some (dslot.toNat, effective sq xsel 20 ord.toNat) }))

/-- The scaling configuration in force. -/
def scaleCfg (s : State) : ScaleCfg :=
  { window := s.plan.cfg.scaleWindow, headroom := s.plan.cfg.scaleHeadroom, floorMant := s.plan.cfg.floorMant,
    floorExp := s.plan.cfg.floorExp }

/-- R95, R96: the step boundary of cluster c's pack unit. -/
def stepCluster (c : Nat) (s : State) : State :=
  let r := fileBoundary (scaleCfg s) (getCl s c).scale
  bump (key 0x4012 (c + 1)) r.2 (modCl c (fun cl => { cl with scale := r.1 }) s)

/-- STEP (R95): the step boundary of every pack unit; the plan master counts the steps of the digest interval (R138). -/
def execStep (q : BitVec 6) (s : State) : Host.Outcome State Fault Refusal :=
  walkOutcome (.step q) q s
    (walk (.step q) q.toNat .free 1 fun s =>
      let s := forEach (List.range (nClusters s.hw)) stepCluster s
      { s with plan := { s.plan with digestSteps := s.plan.digestSteps + 1 } })

end Sys2Proof.Machine
end

