-- ==== Sys2Proof/Machine/ClusterWalk.lean ====
section
/-! DEFINITION. The cluster's walk instructions (09): FETCH with withholding (14), expansions, the flick pass, tiles, packing,
save and restore; the fabric responses and acknowledgements they wait for. -/

namespace Sys2Proof.Machine

/-! ## Denser formats (R346) -/

/-- The pair of descriptors that substitutes d in this frame. -/
def altOf (s : State) (d : Nat) : Option Nat :=
  (s.plan.alts.zipIdx.find? (fun p => bitAt s.plan.altNow p.2 && p.1.1 == d)).map (·.1.2)

/-- R346: effective descriptor, offset and count; ALT_MISFIT where an odd OFF or count keeps d. -/
def altUse (s : State) (d off n : Nat) : Nat × Nat × Nat × Bool :=
  match altOf s d with
  | none => (d, off, n, false)
  | some d' => if off % 2 == 0 && n % 2 == 0 then (d', off / 2, n / 2, false) else (d, off, n, true)

/-- ALT_MISFIT. -/
def countMisfit (b : Bool) (s : State) : State := bumpIf b (key 0x2508 2) 1 s

/-! ## FETCH (R225, R254, R344) -/

/-- R344: the cause code under which a container of class `cls` on stack k is withheld. -/
def withholdCause (s : State) (cls k : Nat) : Option Nat :=
  let st := getStack s k
  if cls == 2 && 1 ≤ st.level then some (if st.sampled == 2 then 2 else if st.sampled == 1 then 1 else 3)
  else if cls == 1 && 2 ≤ st.level then some 3
  else none

def withheldDefault : Withheld := { tenant := 0, cls := 0, stackBits := 0, cause := 0, count := 0 }

/-- R344, R347: a container is withheld: its slot is tagged, WITHHELD advances, the stream's record of the frame grows, and the
records of its slots of this frame, and of the slot whose container it is, report YIELDED from now on. -/
def withhold (c slot cls k cause : Nat) (s : State) : State :=
  let st := curStream s c
  let s := flagStream st (fun f => { f with yielded := true }) (bump (key 0x2508 1) 1 (padTag c slot s))
  let w := tget withheldDefault s.plan.withheld st
  let w' : Withheld := { tenant := curTenant s c, cls := cls, stackBits := w.stackBits ||| 2 ^ k, cause := max w.cause cause,
                         count := min (w.count + 1) 4095 }
  modSeq c (fun sq => { sq with yielded := true }) { s with plan := { s.plan with withheld := tset withheldDefault s.plan.withheld st w' } }

/-- One container of a FETCH: block `blk` of descriptor bits d into `slot`. -/
def fetchOne (c d blk slot : Nat) (r : OpRef) (s : State) : State :=
  let b := slotBits s c
  let e := regionEntry s (tdRgn d)
  match tensorAccess s d blk (some (slotTenant b)) true false with
  | .ok k w =>
    match (if slotKind b == 1 || rgDie e then none else withholdCause s (slotClass b) k) with
    | some cause => opDone r 1 (withhold c slot (slotClass b) k cause s)
    | none =>
      issueRead c { use := .pad slot, addr := tdAddr d blk, priv := rgPriv e, by_ := r, stream := slotStream b,
                    tenant := slotTenant b } w s
  | v => opDone r 1 (padTag c slot (refuse (srcRead c) 0x10 (slotStream b) (slotTenant b) (tdAddr d blk) v s))

/-- The containers of a FETCH in order. -/
def fetchAll (c d off slot n : Nat) (s : State) : State :=
  let r := opNext c s
  forEach (List.range n) (fun k s => fetchOne c d (off + k) (runSlot slot k) r s) (opOpen c n s)

/-- FETCH (R224, R225, R230, R344, R346). -/
def execFetch (q : BitVec 6) (xsel : BitVec 2) (desc : BitVec 12) (off : BitVec 20) (slot : BitVec 14) (cnt : BitVec 10)
    (s : State) : Host.Outcome State Fault Refusal :=
  let i : Instr := .fetch q xsel desc off slot cnt
  let c := q.toNat
  walkOutcome i q s fun s =>
    let sq := getSeq s c
    let g := gateOf s c
    walk i c .fr (2 * (cnt.toNat + 1)) (fun s =>
      let s := countLate g s
      let a := altUse s desc.toNat (effective sq xsel 20 off.toNat) (cnt.toNat + 1)
      if g.skip then bump (key 0x5180 10) (256 * a.2.2.1) s
      else
        fetchAll c (tensorOf s a.1) a.2.1 (effective sq xsel 14 slot.toNat) a.2.2.1 (countMisfit a.2.2.2 s)) s

/-! ## Expansions (R225) -/

/-- R218: a continuation instruction whose TILE names no held tile. -/
def noTile (c : Nat) (s : State) : State := flagPoison (curStream s c) (planHazard c (curStream s c) s)

/-- R30, R216: the open tile of a number is being restored. -/
def tileAwaited (cl : Cluster) (num : Nat) : Bool := match openTile cl num with | some (_, t) => restoring cl t.uid | none => false

/-- R30, R105: an expansion of these slots needs scale entries (R126) that an SCREST has not restored yet; a slot that waits itself is asked
when it has come. -/
def entriesNeeded (cl : Cluster) (d slot n : Nat) : Bool :=
  entriesAwaited cl d && (List.range n).any (fun k =>
    !slotAwaited cl (runSlot slot k) && hScaleMant (padSlot cl (runSlot slot k)).data == 0)

/-- R30, R121: the pad slots of a run that wait for a container, each with the tick at which its E0 is planned: `base` ticks and the cycles
of the run's earlier containers (Table 5.3) after the issue at this tick, stretched as the slot of cluster c's sequencer is (R241). -/
def laneNeeds (s : State) (c slot n fmt base : Nat) : List (Nat × Nat) :=
  (List.range n).filterMap (fun k =>
    let x := runSlot slot k
    let t := base + k * cycles16 fmt / 16
    if slotPending s c x then some (x, s.clock.tick + (if (getSeq s c).stretched then stretchTick t else t)) else none)

/-- R30: a container of these is needed at this tick. -/
def neededNow (s : State) (l : List (Nat × Nat)) : Bool := l.any (fun e => e.2 ≤ s.clock.tick)

/-- The tile that an expansion names, as it is now; one abandoned meanwhile is fed nothing (R206). -/
def tileLater (cl : Cluster) (t : Option Tile) : Option Tile :=
  t.map (fun x => match tileByUid cl x.uid with | some (_, y) => y | none => { x with uid := 0 })

/-- The lanes do the work of an instruction that they have accepted. -/
def runWork (c : Nat) (w : LaneWork) (s : State) : State :=
  match w with
  | .xpw j =>
    let t := tileLater (getCl s c) j.tile
    expandWeights { j with tile := t, keys := match t with | some t => t.toKeys | none => false } s
  | .xpa j => expandActs { j with tile := tileLater (getCl s c) j.tile } s
  | .flick j => runPass c j s
  | .rows => modCl c clearRows s

/-- R30: the lanes of cluster c accept an instruction: it is done at once where every container is there and nothing is before it; else its
work waits for the containers, in order of issue. -/
def acceptWork (c op : Nat) (needs : List (Nat × Nat)) (w : LaneWork) (s : State) : State :=
  if needs.isEmpty && (getCl s c).lane.isEmpty then runWork c w s
  else modCl c (fun cl => { cl with lane := cl.lane ++ [{ work := w, op := op, inSlot := (getSeq s c).slot, needs := needs, late := false }] }) s

/-- A change of state made for the slot that issued an instruction (stream and tenant, R239). -/
def forSlot (c slot : Nat) (f : State → State) (s : State) : State :=
  let now := (getSeq s c).slot
  if now = slot then f s else modSeq c (fun q => { q with slot := now }) (f (modSeq c (fun q => { q with slot := slot }) s))

/-- R30: the lanes do what is accepted while the containers of the oldest instruction are all there. -/
def runLane (c : Nat) : Nat → State → State
  | 0, s => s
  | n + 1, s =>
    match (getCl s c).lane with
    | [] => s
    | j :: rest =>
      if j.needs.any (fun e => slotPending s c e.1) then s
      else runLane c n (forSlot c j.inSlot (runWork c j.work) (modCl c (fun cl => { cl with lane := rest }) s))

/-- A tick that the lanes wait: what is planned after it comes a tick later. -/
def LaneJob.delayed (first : Bool) (now : Nat) (j : LaneJob) : LaneJob :=
  { j with needs := j.needs.map (fun e => if first && decide (e.2 < now) then e else (e.1, e.2 + 1)), late := j.late || first }

/-- R30: one tick of the lanes of cluster c: what has come is expanded; a wait is reported once, as a plan overrun of its sequencer. -/
def laneTick (c : Nat) (s : State) : State :=
  let s := runLane c (getCl s c).lane.length s
  match (getCl s c).lane with
  | [] => s
  | j :: rest =>
    if lanesWait s c then
      let s := if j.late then s else forSlot c j.inSlot (raiseOverrun c (seqSource c) j.op) s
      modCl c (fun cl => { cl with lane := j.delayed true s.clock.tick :: rest.map (LaneJob.delayed false s.clock.tick) }) s
    else s

/-- XPW (R225, R30). -/
def execXpw (q : BitVec 6) (xsel : BitVec 2) (desc : BitVec 12) (slot : BitVec 14) (cnt : BitVec 10) (tile : BitVec 3)
    (path : BitVec 2) (trans krows : Bool) (col0 : BitVec 12) (s : State) : Host.Outcome State Fault Refusal :=
  let i : Instr := .xpw q xsel desc slot cnt tile path trans krows col0
  let c := q.toNat
  let n := cnt.toNat + 1
  walkOutcome i q s fun s =>
    let sq := getSeq s c
    let g := gateOf s c
    let d := tensorOf s desc.toNat
    let slot0 := effective sq xsel 14 slot.toNat
    let verify := match g.pass with
      | some p => if fdGdesc (flickOf s p.fdesc) == desc.toNat then gateVerify s c else none
      | none => none
    let runs := !g.skip || verify.isSome
    let needs := laneNeeds s c slot0 n (tdFormat d) 0
    let late := runs && (neededNow s needs || (verify.isNone && tileAwaited (getCl s c) tile.toNat))
    let pass := gatePass s c
    walkLate i c .ln (ceilXpw (tdFormat d) n path.toNat krows) late (fun s =>
      let s := markPredicted c tile.toNat g (countLate g s)
      if !runs then s
      else
        let t := (openTile (getCl s c) tile.toNat).map (·.2)
        let test := inTestEntry s c
        let s := if t.isNone && !test && verify.isNone then noTile c s else s
        let j : XpwJob :=
          { c := c, d := d, slot := slot0, n := n, path := path.toNat, trans := trans, krows := krows, col0 := col0.toNat, tile := t
            test := test, verify := verify, pass := pass, predicted := g.predicted, dmark := sq.dmark
            keys := match t with | some t => t.toKeys | none => false }
        acceptWork c 0x11 needs (.xpw j) s) s

/-- XPA (R225, R30). -/
def execXpa (q : BitVec 6) (xsel : BitVec 2) (desc : BitVec 12) (slot : BitVec 14) (cnt : BitVec 10) (tile : BitVec 3)
    (row : BitVec 4) (dest : BitVec 2) (s : State) : Host.Outcome State Fault Refusal :=
  let i : Instr := .xpa q xsel desc slot cnt tile row dest
  let c := q.toNat
  walkOutcome i q s fun s =>
    let sq := getSeq s c
    let g := gateOf s c
    let slot0 := effective sq xsel 14 slot.toNat
    let verify := match g.pass with
      | some p => if fdAdesc (flickOf s p.fdesc) == desc.toNat then gateVerify s c else none
      | none => none
    let runs := !g.skip || verify.isSome
    let a := altUse s desc.toNat 0 (cnt.toNat + 1)
    let needs := laneNeeds s c slot0 a.2.2.1 (tdFormat (tensorOf s a.1)) 0
    let late := runs && (neededNow s needs || tileAwaited (getCl s c) tile.toNat
      || entriesNeeded (getCl s c) (tensorOf s a.1) slot0 a.2.2.1)
    let pass := gatePass s c
    walkLate i c .ln (ceilXpa (tdFormat (tensorOf s desc.toNat)) (cnt.toNat + 1)) late (fun s =>
      let s := markPredicted c tile.toNat g (countLate g s)
      if !runs then s
      else
        let s := countMisfit a.2.2.2 s
        let t := (openTile (getCl s c) tile.toNat).map (·.2)
        let test := inTestEntry s c
        let s := if t.isNone && !test then noTile c s else s
        let j : XpaJob :=
          { c := c, d := tensorOf s a.1, slot := slot0, n := a.2.2.1, row := row.toNat, dest := dest.toNat, tile := t, test := test
            pass := pass, predicted := g.predicted }
        acceptWork c 0x12 needs (.xpa j) s) s

/-- R30: the containers a FLICK waits for: its activation rows, and then its gate containers (Table 9.3). -/
def flickNeeds (s : State) (c fd aslot gslot rows : Nat) : List (Nat × Nat) :=
  let af := tdFormat (tensorOf s (fdAdesc fd))
  laneNeeds s c aslot (rows * fdAcnt fd) af 0
    ++ laneNeeds s c gslot (fdNcount fd * fdGcnt fd) (tdFormat (tensorOf s (fdGdesc fd))) (ceilDiv (rows * fdAcnt fd * cycles16 af) 16)

/-- FLICK issues: its pass begins, and its containers are read. -/
def startPass (c pass mode fd aslot gslot rows : Nat) (needs : List (Nat × Nat)) (s : State) : State :=
  let d := flickOf s fd
  let j : FlickJob := { uid := (getCl s c).nextPass + 1, fd := d, ad := tensorOf s (fdAdesc d), gd := tensorOf s (fdGdesc d)
                        aslot := aslot, gslot := gslot, rows := rows }
  if (fmtOf (tdFormat j.ad)).isSome && (fmtOf (tdFormat j.gd)).isSome then
    acceptWork c 0x13 needs (.flick j) (beginPass c pass mode fd rows s)
  else s

/-- FLICK (R171, R176, R30). -/
def execFlick (q : BitVec 6) (xsel : BitVec 2) (pass : BitVec 4) (mode : BitVec 2) (fdesc : BitVec 8) (aslot gslot : BitVec 14)
    (rows : BitVec 4) (s : State) : Host.Outcome State Fault Refusal :=
  let i : Instr := .flick q xsel pass mode fdesc aslot gslot rows
  let c := q.toNat
  let n := rows.toNat + 1
  walkOutcome i q s fun s =>
    let sq := getSeq s c
    let fd := flickOf s fdesc.toNat
    let a := effective sq xsel 14 aslot.toNat
    let g := effective sq xsel 14 gslot.toNat
    let needs := flickNeeds s c fd a g n
    let late := neededNow s needs || entriesNeeded (getCl s c) (tensorOf s (fdAdesc fd)) a (n * fdAcnt fd)
    walkLate i c .ln (ceilFlick s fd n) late (startPass c pass.toNat mode.toNat fdesc.toNat a g n needs) s

/-! ## Tiles (R206, R207, R210) -/

/-- The tile a descriptor opens now. -/
def tileNow (s : State) (c num td mode : Nat) : Tile :=
  newTile ((getCl s c).nextTile + 1) num (tileOf s td) mode (curStream s c) (curTenant s c)

/-- The cluster as R210 sees it when a TOPEN abandons the open tile of its number first. -/
def withoutOpen (cl : Cluster) (num : Nat) : Cluster :=
  match openTile cl num with
  | some (k, _) => { cl with tiles := tdel cl.tiles k }
  | none => cl

/-- TOPEN (R206, R207, R448): the first attempt abandons the open tile of its number; then the new one opens under R210. -/
def execTopen (q : BitVec 6) (tile : BitVec 3) (tdesc : BitVec 12) (mode : BitVec 2) (s : State) :
    Host.Outcome State Fault Refusal :=
  let i : Instr := .topen q tile tdesc mode
  let c := q.toNat
  let num := tile.toNat
  walkOutcome i q s fun s =>
    let t := tileNow s c num tdesc.toNat mode.toNat
    let t := match t.far with | some d => { t with far := some (tensorOf s d) } | none => t
    let waits := (getSeq s c).waitUnit.isSome
    let held := mustWait (if waits then getCl s c else withoutOpen (getCl s c) num) t
    let s := if canIssue s c i && !waits then abandonTile c num (curStream s c) s else s
    walkWait i c .free 1 false held (placeTile c t) s

/-- R225: PACK closes TILE and requests its drain. -/
def closeTile (c num : Nat) (r : PackReq) (s : State) : State :=
  match openTile (getCl s c) num with
  | none => noTile c s
  | some (_, t) => modTile c t.uid (fun t => { t with named := false, closed := some r }) (opOpen c 1 s)

/-- PACK (R225, R30). -/
def execPack (q : BitVec 6) (xsel : BitVec 2) (tile : BitVec 3) (desc : BitVec 12) (off : BitVec 20) (stats ptok stoch link : Bool)
    (port : BitVec 4) (s : State) : Host.Outcome State Fault Refusal :=
  let i : Instr := .pack q xsel tile desc off stats ptok stoch link port
  let c := q.toNat
  walkOutcome i q s fun s =>
    let sq := getSeq s c
    let a := altUse s desc.toNat (effective sq xsel 20 off.toNat) 0
    let d := tensorOf s a.1
    let acts := match fmtOf (tdFormat d) with | some f => f.isAct | none => false
    let late := tileAwaited (getCl s c) tile.toNat || (acts && entriesAwaited (getCl s c) d)
    walkLate i c .free 1 late (fun s =>
      closeTile c tile.toNat
        { desc := a.1, off := a.2.1, stats := stats, ptok := ptok, stoch := stoch, link := if link then some port.toNat else none,
          by_ := opNext c s, stream := curStream s c, tenant := curTenant s c } (countMisfit a.2.2.2 s)) s

/-! ## Scale vectors, save and restore (R92, R105, R215, R216) -/

/-- SVEC (R92, R30). -/
def execSvec (q : BitVec 6) (desc vdesc : BitVec 12) (s : State) : Host.Outcome State Fault Refusal :=
  let i : Instr := .svec q desc vdesc
  let c := q.toNat
  walkOutcome i q s (walkLate i c .free 1 (entriesAwaited (getCl s c) (tensorOf s desc.toNat)) fun s =>
    let d := tensorOf s desc.toNat
    let blocks := (List.range (ceilDiv (tdNent d) 128)).map (vectorBlock (getCl s c) d)
    saveBlocks c (srcPack c) 0x1A (tensorOf s vdesc.toNat) blocks s)

/-- SCSAVE (R105, R30). -/
def execScsave (q : BitVec 6) (desc sdesc : BitVec 12) (s : State) : Host.Outcome State Fault Refusal :=
  let i : Instr := .scsave q desc sdesc
  let c := q.toNat
  walkOutcome i q s (walkLate i c .free 1 (entriesAwaited (getCl s c) (tensorOf s desc.toNat)) fun s =>
    let d := tensorOf s desc.toNat
    let blocks := (List.range (ceilDiv (tdNent d) 4)).map (scaleBlock s.plan.cfg.scaleWindow (getCl s c) d)
    saveBlocks c (srcPack c) 0x1D (tensorOf s sdesc.toNat) blocks s)

/-- SAVE (R215): the state block, then the accumulators; the scratchpad's words are free values (log 13). A SAVE that names no open tile, of which
R218 does not speak, writes nothing and counts and reports as a continuation does (log 185). -/
def saveTile (c num area : Nat) (s : State) : State :=
  match openTile (getCl s c) num with
  | none => noTile c s
  | some (_, t) =>
    let n := t.rows * t.cols
    let blocks := stateBlock t t.tenant :: (List.range (ceilDiv n 32)).map (saveAccBlock t s.freeIdx)
    saveBlocks c (srcMerge c) 0x1B area blocks (readTile c t { s with freeIdx := s.freeIdx + n })

/-- R210: a SAVE waits while all eight entries are held, or its tile's accumulators overlap those of another held tile. -/
def saveWaits (cl : Cluster) (num : Nat) : Bool :=
  match openTile cl num with
  | none => false
  | some (_, t) => (freeEntry cl).isNone || cl.tiles.any (fun e => e.2.uid != t.uid && tilesOverlap t e.2)

/-- SAVE. -/
def execSave (q : BitVec 6) (tile : BitVec 3) (desc : BitVec 12) (s : State) : Host.Outcome State Fault Refusal :=
  let i : Instr := .save q tile desc
  let c := q.toNat
  walkOutcome i q s fun s =>
    walkWait i c .free 1 (tileAwaited (getCl s c) tile.toNat) (saveWaits (getCl s c) tile.toNat) (fun s => saveTile c tile.toNat (tensorOf s desc.toNat) s) s

/-- One block of a restore: requested, or, refused, treated as poisoned by its reader (R254). -/
def readBlock (c op d : Nat) (use : ReadFor) (r : OpRef) (lost : State → State) (k : Nat) (s : State) : State :=
  let b := slotBits s c
  match tensorAccess s d k (some (slotTenant b)) true true with
  | .ok _ w =>
    issueRead c { use := use, addr := tdAddr d k, priv := rgPriv (regionEntry s (tdRgn d)), by_ := r, stream := slotStream b,
                  tenant := slotTenant b } w s
  | v => opDone r 1 (lost (refuse (srcRead c) op (slotStream b) (slotTenant b) (tdAddr d k) v s))

/-- RESTORE (R216): the tile is opened as with OPEN_KEEP; its blocks are requested. Its entry is held from here on; what names the tile
waits until its blocks have come (R30, log 180). -/
def restoreInto (c num d td : Nat) (s : State) : State :=
  let t := tileNow s c num td 1
  let n := 1 + ceilDiv (t.rows * t.cols) 32
  let r := opNext c s
  let s := opOpen c n (placeTile c t s)
  forEach (List.range n) (fun k s => readBlock c 0x1C d (.restore t.uid k) r (poisonTile c t.uid) k s) s

/-- RESTORE. -/
def execRestore (q : BitVec 6) (tile : BitVec 3) (desc tdesc : BitVec 12) (s : State) : Host.Outcome State Fault Refusal :=
  let i : Instr := .restore q tile desc tdesc
  let c := q.toNat
  walkOutcome i q s fun s =>
    let t := tileNow s c tile.toNat tdesc.toNat 1
    let ceil := 2 * (1 + ceilDiv (t.rows * t.cols) 32)
    walkWait i c .fr ceil false (mustWait (getCl s c) t) (restoreInto c tile.toNat (tensorOf s desc.toNat) tdesc.toNat) s

/-- SCREST (R105). -/
def execScrest (q : BitVec 6) (desc sdesc : BitVec 12) (s : State) : Host.Outcome State Fault Refusal :=
  let i : Instr := .screst q desc sdesc
  let c := q.toNat
  walkOutcome i q s fun s =>
    let d := tensorOf s desc.toNat
    let n := ceilDiv (tdNent d) 4
    let qmax := qmaxOf (tdFormat d)
    walk i c .fr (2 * n) (fun s =>
      let r := opNext c s
      forEach (List.range n) (fun k s =>
        readBlock c 0x1E (tensorOf s sdesc.toNat) (.scale (tdEntry0 d) (tdNent d) (tdTseq d) (tdB d) qmax k) r
          (restoreScale c (tdEntry0 d) (tdNent d) (tdTseq d) (tdB d) qmax k 0 false) k s) (opOpen c n s)) s

/-! ## What passes with a tick (R20, R30, R210) -/

/-- R210: the next word of sequencer q opens, saves or restores a tile and still has to wait for a held one. -/
def hazardHeld (s : State) (q : Nat) : Bool :=
  let cl := getCl s q
  match (match seqImage s q with | some si => (si.prog[(getSeq s q).pc]?).bind (decodeWalk (BitVec.ofNat 6 q)) | none => none) with
  | some (.topen _ num td mode) => mustWait cl (tileNow s q num.toNat td.toNat mode.toNat)
  | some (.restore _ num _ td) => mustWait cl (tileNow s q num.toNat td.toNat 1)
  | some (.save _ num _) => saveWaits cl num.toNat
  | _ => false

/-- R210: sequencer q waits for a held tile. -/
def hazardWaits (s : State) (q : Nat) : Bool :=
  let sq := getSeq s q
  sq.running && (match sq.waitUnit with | some (_, held) => held | none => false) && hazardHeld s q

/-- R210: a tick of a wait for a held tile. -/
def hazardTick (q : Nat) (s : State) : State := bumpIf (hazardWaits s q) (key 0xA035 (q + 1)) 1 s

/-- A tick of the clusters: waits for held tiles count, drains complete containers, the lanes take what has come. In the fatal state nothing
does (R369). -/
def clusterTicks (s : State) : State :=
  if s.faults.fatal then s
  else
    let s := forEach (s.seqs.map (·.1)) hazardTick s
    forEach (s.clusters.map (·.1)) (fun c s => laneTick c (drainTick c s)) s

/-! ## Fabric responses and acknowledgements (R437, R257, R260) -/

/-- The unit that made a read (R257, Table 10.4). -/
def readerOf (c : Nat) : ReadFor → Nat
  | .pad _ => srcRead c
  | .restore _ _ => srcMerge c
  | .scale _ _ _ _ _ _ => srcPack c

/-- The opcode of the instruction that made a read (R354, log 157): FETCH, RESTORE, SCREST. -/
def readOp : ReadFor → BitVec 8
  | .pad _ => 0x10
  | .restore _ _ => 0x1C
  | .scale _ _ _ _ _ _ => 0x1E

/-- R257, R260: an uncorrectable response: one candidate, and for a privileged region a contained memory fault. -/
def uncorrectable (c : Nat) (r : ReadReq) (s : State) : State :=
  let s := addCandidate r.addr (if r.priv then 4 else 1) s
  if r.priv then
    raise { source := BitVec.ofNat 12 (readerOf c r.use), cls := .contained, access := 6, akind := 1, addr := BitVec.ofNat 48 r.addr,
            op := readOp r.use, stream := BitVec.ofNat 10 r.stream, tenant := BitVec.ofNat 8 r.tenant } s
  else s

/-- What a read response names in its queue entry: a pad slot below 16,384, else another unit of the cluster. -/
def entrySlot : ReadFor → Nat
  | .pad slot => slot
  | _ => 16384

/-- Table 20.3, step 3: an accepted response for the pad is written into its slot with its tag (R55). -/
def acceptBlock (c : Nat) (r : ReadReq) (data : Block) (ue : Bool) (s : State) : State :=
  match r.use with
  | .pad slot =>
    let s := modCl c (fun cl => { cl with fillTick := some s.clock.tick }) s
    bumpIf (!slotFenced (getCl s c) slot) (key 0xA000 3) 1 (padFill c slot data ue r.addr s)
  | _ => s

/-- The header's class-specific bits of a read response: its pad slot, or free sequence fields (R329). -/
def responseField (s : State) : ReadFor → Nat
  | .pad slot => slot
  | _ => freeField s

/-- FABRIC_READ_RESPONSE (R437, R334): the oldest outstanding read of cluster c's port is answered; the next one waiting is requested.
The read completes when the cluster takes the entry from its queue (R327). -/
def execFabricReadResponse (c : BitVec 5) (data : Block) (ue : Bool) (s : State) : Host.Outcome State Fault Refusal :=
  guarded (c.toNat < nClusters s.hw) s fun s =>
    match (getCl s c.toNat).reads with
    | [] => s
    | r :: rest => whenS (!queueFull s c.toNat) s fun s =>
      let s := modCl c.toNat (fun cl => { cl with reads := rest, arrived := cl.arrived ++ [{ req := r, ue := ue }] }) s
      let s := if ue then uncorrectable c.toNat r s else s
      let s := pushEntry c.toNat (srcRead c.toNat) (entrySlot r.use) (responseField s r.use) (containerWords data) s
      nextRead c.toNat (acceptBlock c.toNat r data ue s)

/-- FABRIC_WRITE_DONE (R437): the oldest outstanding write of cluster c's port is performed. -/
def execFabricWriteDone (c : BitVec 5) (s : State) : Host.Outcome State Fault Refusal :=
  guarded (c.toNat < nClusters s.hw) s fun s =>
    match (getCl s c.toNat).writes with
    | [] => s
    | w :: rest =>
      opDone w.by_ 1 (bumpIf w.isContainer (key 0xA000 5) 1 (modCl c.toNat (fun cl => { cl with writes := rest }) s))

/-- Acknowledge the oldest outstanding word of one lane. -/
def ackLane (u lane : Nat) (s : State) : State :=
  let out := if u = 0 then s.ord0.lanes else s.ord1.lanes
  match out.find? (fun e => e.lane == lane) with
  | none => s
  | some e =>
    let rest := out.erase e
    opDone e.by_ 1 (if u = 0 then { s with ord0 := { lanes := rest } } else { s with ord1 := { lanes := rest } })

/-- EA_DONE (R265, R439): bit l acknowledges the word of lane l. -/
def execEaDone (u : Bool) (lanes : BitVec 16) (s : State) : Host.Outcome State Fault Refusal :=
  guarded true s fun s =>
    forEach (positions 16 (bitAt lanes.toNat)) (ackLane (b2n u)) s

end Sys2Proof.Machine
end

