-- ==== Sys2Proof/Machine/Link.lean ====
section
/-! DEFINITION. Link ports (11): frames, verdicts, retraction and confirmation, holds, transfers, link loss and
resynchronisation. -/

namespace Sys2Proof.Machine

/-! ## Names (Tables 11.12 and 15.1) -/

def srcTx (p : Nat) : Nat := 0x600 + 4 * p
def srcRx (p : Nat) : Nat := 0x600 + 4 * p + 1
def srcCh (p : Nat) : Nat := 0x600 + 4 * p + 2

/-- Object i of port p. -/
def lk (p i : Nat) : Nat := key (0x6000 + p) i

/-- The instances' link sequencers. -/
def linkSeqs (s : State) : List Nat := (List.range (nPorts s.hw)).map (32 + ·)

/-! ## Verdicts (R280) -/

/-- Confirm when everything confirms, retract when anything retracts, else open. -/
def verdictOf (s : State) (v : Verdict) (makers : List (Nat × Nat)) (ranges : List Range) : Verdict :=
  if v = .retracted then .retracted else if !makers.isEmpty || rangesOpen s ranges then .unsettled else .confirmed

/-- The verdict a maker's or a link container's retraction leaves. -/
def retractIf (b : Bool) (v : Verdict) : Verdict := if b then .retracted else v

/-! ## Frames (R269 to R272) -/

/-- The fields of a frame header that its type fixes; VERSION, EPOCH and SRC_INST are the instance's. -/
structure FrameHead where
  typ : Nat
  dst : Nat := 0
  channel : Nat := 0
  tenant : Nat := 0
  cexp : Int := 0
  count : Nat := 0
  fseq : Nat := 0
  cseq : Nat := 0
  prov : Nat := 0
  ord : Nat := 0
  hop : Nat := 0
  flags : Nat := 0
  deriving DecidableEq, Repr

/-- HCRC over header bytes 0 to 27. -/
def sealHeader (v : Nat) : BitVec 256 := BitVec.ofNat 256 (fld v 0 224 + put (crc32c (toBytes 28 v)) 224 32)

/-- TCRC over trailer bytes 0 to 11. -/
def sealTrailer (v : Nat) : BitVec 128 := BitVec.ofNat 128 (fld v 0 96 + put (crc32c (toBytes 12 v)) 96 32)

/-- Table 11.1. -/
def headerWordOf (s : State) (h : FrameHead) : BitVec 256 :=
  sealHeader (put 1 0 8 + put h.typ 8 4 + put (epochOf s) 12 12 + put (instanceId s) 24 12 + put h.dst 36 12
    + put h.channel 48 10 + put h.tenant 58 8 + put (twos 8 h.cexp) 66 8 + put h.count 74 6 + put h.fseq 80 16
    + put h.cseq 96 16 + put h.prov 112 32 + put h.ord 144 20 + put h.hop 164 8 + put h.flags 172 8)

/-- Table 11.2. -/
def trailerWordOf (vbase vcount vbits : Nat) : BitVec 128 :=
  sealTrailer (put vbase 0 16 + put vcount 16 7 + put vbits 32 64)

/-- R269, R293: a frame leaves the port. -/
def sendFrame (p : Nat) (h : FrameHead) (cs : List Block) (tr : BitVec 128) (s : State) : State :=
  let q := getPort s p
  let f : Frame :=
    { header := headerWordOf s h, containers := cs, trailer := tr
      eth := if q.ethMode == 0 then none else some (BitVec.ofNat 16 q.ethType, BitVec.ofNat 48 q.ethDst) }
  bump (lk p 11) 1
    (emit (.frame p f (if q.ethMode == 2 then some (BitVec.ofNat 16 q.ethTag) else none) (BitVec.ofNat 48 q.ethSrc)) s)

/-! ## Trailers (R273, R281) -/

/-- The sequence number of the port's oldest container that no trailer has settled. -/
def oldestOpen (q : Port) : Nat := match q.window with | i :: _ => i.seq | [] => q.txC

/-- The containers at the head of the window whose verdict is known, with it, and the rest. -/
def knownVerdicts (s : State) : List TxItem → List Verdict × List TxItem
  | [] => ([], [])
  | i :: r =>
    match verdictOf s i.verdict i.makers i.ranges with
    | .unsettled => ([], i :: r)
    | v => let t := knownVerdicts s r; (v :: t.1, t.2)

/-- The port has verdicts to send. -/
def verdictsDue (s : State) (p : Nat) : Bool := !(knownVerdicts s (getPort s p).window).1.isEmpty

/-- The trailer of the frame that leaves now: it settles every container whose verdict is known, in sequence order. -/
def takeTrailer (p : Nat) (s : State) : BitVec 128 × State :=
  let q := getPort s p
  let k := knownVerdicts s q.window
  let bits := maskOf 64 (fun i => k.1[i]? == some .retracted)
  (trailerWordOf (oldestOpen q) k.1.length bits,
   bump (lk p 13) (k.1.filter (· == .retracted)).length (setPort p { q with window := k.2 } s))

/-- R274: a verdict-only frame. -/
def sendVerdicts (p : Nat) (s : State) : State :=
  let q := getPort s p
  let t := takeTrailer p s
  sendFrame p { typ := 1, fseq := q.txF, cseq := q.txC } [] t.1 (modPort p (fun q => { q with txF := (q.txF + 1) % 65536 }) t.2)

/-- R291: a resync request (type 2) or acknowledge (type 3), with ACCEPT_LOCAL in VBITS. A test slot holds it back (R240); in the
fatal state and once quiesced the port drives nothing (R369, R443). -/
def sendResync (p typ : Nat) (s : State) : State :=
  if s.faults.fatal || s.boot.phase != .ready then s
  else if s.plan.testSlot then
    modPort p (fun q => { q with owed := if q.owed.contains typ then q.owed else q.owed ++ [typ] }) s
  else sendFrame p { typ := typ } [] (trailerWordOf 0 0 (getPort s p).acceptLocal) s

/-- R240: the frames that the test slot held back leave. -/
def sendOwed (p : Nat) (s : State) : State :=
  forEach (getPort s p).owed (sendResync p) (modPort p (fun q => { q with owed := [] }) s)

/-! ## Holds (R284, R301, R264) -/

/-- The oldest container of a port's memory hold, where it has crossed its queue and is settled, with its verdict. -/
def settledHold (s : State) (p : Nat) : Option (HoldItem × Verdict) :=
  match (getPort s p).hold with
  | [] => none
  | h :: _ =>
    match verdictOf s h.verdict h.makers h.ranges with
    | .unsettled => none
    | v => if h.arrived then some (h, v) else none

/-- Table 11.5, memory: written, or written marked. -/
def writeHold (p : Nat) (h : HoldItem × Verdict) (s : State) : State :=
  let i := h.1
  let bad := h.2 == .retracted
  let s := if bad || hPoison i.block then flagPoison i.stream s else s
  sendWrite i.cluster (srcRx p) 0x21 i.stream i.tenant i.desc i.off (if bad then markPoison i.block else i.block) true i.by_ s

/-- The port's settled containers are written in order, while the write queue of their cluster has room (R334): at most `n`. -/
def drainHoldN (p : Nat) : Nat → State → State
  | 0, s => s
  | n + 1, s =>
    match settledHold s p with
    | none => s
    | some h =>
      if writeRoom s h.1.cluster = 0 then s
      else drainHoldN p n (writeHold p h (modPort p (fun q => { q with hold := q.hold.drop 1 }) s))

def drainHold (p : Nat) (s : State) : State := drainHoldN p 64 s

/-- R264: nothing is issued; FAR_POISON advances and the producing stream reports POISON. -/
def farDiscard (stream : Nat) (r : OpRef) (s : State) : State := opDone r 1 (flagPoison stream (bump (key 0x3070 5) 1 s))

/-- R262: the words of a CX32 container: element e of container k adds to word 56k + e. A detection in it and its candidate carry BASE + 256k
of the add target: the container lies at no address, and R54 and R260 name none (log 167). -/
def addContainer (u : Nat) (h : EaHold) (b : Block) (s : State) : State :=
  let v := inspect { expect := some 0x20, tenant := tenantAsk s h.target h.tenant } b
  let addr := tdAddr h.target h.index
  let s := reportSeen (srcOrd u) 1 addr 0x22 h.stream h.tenant v (countSeen none v s)
  let s := if v.bad then addCandidate addr 3 s else s
  match fmtOf 0x20 with
  | none => s
  | some f =>
    if v.poisoned then farDiscard h.stream h.by_ s
    else
      let e := expandBlock f false v.count v.block
      let vals := e.vals.zipIdx
      let s := opMore h.by_ vals.length (countAnoms none e.anoms s)
      opDone h.by_ 1 (forEach vals (fun x s =>
        addWord (srcOrd u) 0x22 h.target (56 * h.index + x.2) h.stream h.tenant x.1 (hExp v.block) h.by_ s) s)

/-- R265: the ordering unit that serves the stack of a target's base. -/
def unitOf (s : State) (d : Nat) : Nat := (interleaveOf (regionEntry s (tdRgn d)) (tdBase d)).1 % 2

/-- One settled entry of the ordering units' hold. -/
def releaseEa (h : EaHold × Verdict) (s : State) : State :=
  let i := h.1
  if h.2 == .retracted then farDiscard i.stream i.by_ s
  else
    match i.block with
    | some b => addContainer (unitOf s i.target) i b s
    | none => addWord (srcOrd (unitOf s i.target)) 0x19 i.target i.index i.stream i.tenant i.val i.exp i.by_ s

/-- The entries that may leave: settled, arrived, and no earlier entry of the same queue stays. -/
def settledEa (s : State) (blocked : List Nat) : List EaHold → List (EaHold × Verdict) × List EaHold
  | [] => ([], [])
  | h :: r =>
    let v := verdictOf s h.verdict h.makers h.ranges
    if !h.arrived || blocked.contains h.queue || v == .unsettled then
      let t := settledEa s (h.queue :: blocked) r; (t.1, h :: t.2)
    else let t := settledEa s blocked r; ((h, v) :: t.1, t.2)

/-- The ordering units issue what is settled. -/
def drainEa (s : State) : State :=
  let t := settledEa s [] s.eaHold
  forEach t.1 releaseEa { s with eaHold := t.2 }

/-- R23: a link delivery and a pack-unit write of cluster c are ready together. -/
def writeCollision (s : State) (c : Nat) : Bool :=
  decide (0 < writeRoom s c) && !(takeSettled s 1 (getCl s c).packQueue).1.isEmpty
  && (List.range (nPorts s.hw)).any (fun p => match settledHold s p with | some h => h.1.cluster == c | none => false)

/-- R23: the pack-unit write waits and completes late: a plan overrun of the pack unit (R30). -/
def countCollisions (s : State) : State :=
  forEach ((List.range (nClusters s.hw)).filter (writeCollision s)) (fun c s => raiseOverrun c (srcPack c) 0x19 s) s

/-- R284: everything that waited for a verdict that is now known leaves; link deliveries are written before pack-unit writes (R23). -/
def settleAll (s : State) : State :=
  drainEa (forEach (List.range (nClusters s.hw)) drainQueue (forEach (List.range (nPorts s.hw)) drainHold (countCollisions s)))

/-! ## Confirmation and retraction of a received container (R282, R283) -/

/-- The pending tag of sequence number x of port p goes from every pad slot, and from what is on its way to one. -/
def clearTags (p x : Nat) (s : State) : State :=
  forEach (List.range (nClusters s.hw)) (fun c s => modCl c (fun cl => { cl with
    toPad := cl.toPad.map (fun v => if v.pend == some (p, x) then { v with pend := none } else v)
    pad := tmap .empty (fun v => if v.pend == some (p, x) then { v with pend := none } else v) cl.pad }) s) s

/-- Sequence number x of port p confirms. -/
def confirmSeq (p x : Nat) (s : State) : State :=
  clearTags p x (modPort p (fun q => { q with
    rxOpen := q.rxOpen.filter (· != x)
    rxPoisoned := q.rxPoisoned.filter (· != x)
    buf := q.buf.map (fun i => if i.seq == x && i.verdict = .unsettled then { i with verdict := .confirmed } else i) }) s)

def rangesHold (p x : Nat) (l : List Range) : Bool := l.any (fun r => r.holds p x)

/-- A link item is retracted as it is; a container for memory is poisoned and sealed again. -/
def retractRow (p x : Nat) (k : KeyRow) : KeyRow := if rangesHold p x k.ranges then { k with poison := true } else k

/-- What a retraction does in one cluster. -/
def retractInCluster (p x c : Nat) (s : State) : State :=
  let cl := getCl s c
  let hit := cl.tiles.any (fun e => rangesHold p x e.2.ranges)
  let lost := cl.packQueue.filter (fun i => rangesHold p x i.ranges)
  let s := setCl c { cl with
    pad := tmap .empty (fun v => if v.pend == some (p, x) then { v with poison := true, pend := none, retracted := true } else v) cl.pad
    toPad := cl.toPad.map (fun v => if v.pend == some (p, x) then { v with poison := true, pend := none, retracted := true } else v)
    tiles := cl.tiles.map (fun e => if rangesHold p x e.2.ranges then (e.1, e.2.retract) else e)
    key0 := retractRow p x cl.key0
    key1 := retractRow p x cl.key1
    packQueue := cl.packQueue.map (fun i => if rangesHold p x i.ranges then retractItem i else i) } s
  forEach lost (fun i s => flagPoison i.stream s) (bumpIf hit (key 0xA036 (c + 1)) 1 s)

/-- What a retraction does to what port q has been handed: `hit` answers whether a container of these makers and ranges is retracted. The
streams of what was sent, or waits for its frame, report POISON (R259, Table 11.9); those of what is held when it leaves its hold. -/
def retractHeld (hit : List (Nat × Nat) → List Range → Bool) (q : Nat) (s : State) : State :=
  let v := getPort s q
  let lost := (v.window.filter (fun i => hit i.makers i.ranges && i.verdict != .retracted)).map (·.stream)
    ++ (v.chOut.filter (fun i => hit i.makers i.ranges && i.verdict != .retracted)).map (·.stream)
  forEach lost flagPoison (setPort q { v with
    window := v.window.map (fun i => { i with verdict := retractIf (hit i.makers i.ranges) i.verdict })
    hold := v.hold.map (fun i => { i with verdict := retractIf (hit i.makers i.ranges) i.verdict })
    chOut := v.chOut.map (fun i => { i with verdict := retractIf (hit i.makers i.ranges) i.verdict }) } s)

/-- The same in every port and in the ordering units' hold (R264, R283). -/
def retractSent (hit : List (Nat × Nat) → List Range → Bool) (s : State) : State :=
  let s := forEach (List.range (nPorts s.hw)) (retractHeld hit) s
  { s with eaHold := s.eaHold.map (fun h => { h with verdict := retractIf (hit h.makers h.ranges) h.verdict }) }

/-- Sequence number x of port p is retracted. Where the container was poisoned already, at its arrival or at its claim, that changes
nothing further (R303): it only settles. -/
def retractSeq (p x : Nat) (s : State) : State :=
  if (getPort s p).rxPoisoned.contains x then confirmSeq p x s
  else
    let s := modPort p (fun q => { q with
      rxOpen := q.rxOpen.filter (· != x)
      buf := q.buf.map (fun i => if i.seq == x && i.verdict = .unsettled then { i with verdict := .retracted } else i) }) s
    retractSent (fun _ l => rangesHold p x l) (forEach (List.range (nClusters s.hw)) (retractInCluster p x) s)

/-- R280: a maker's residue verdict settles in everything that left its queue. -/
def settleMaker (m : Nat × Nat) (confirm : Bool) (s : State) : State :=
  let s := if confirm then s else retractSent (fun l _ => l.contains m) s
  let f (l : List (Nat × Nat)) : List (Nat × Nat) := l.filter (· != m)
  let s := forEach (List.range (nPorts s.hw)) (fun q s => modPort q (fun v => { v with
    window := v.window.map (fun i => { i with makers := f i.makers })
    hold := v.hold.map (fun i => { i with makers := f i.makers })
    chOut := v.chOut.map (fun i => { i with makers := f i.makers }) }) s) s
  { s with eaHold := s.eaHold.map (fun h => { h with makers := f h.makers }) }

/-! ## Transfers: what is ready to be sent (R276 to R281) -/

/-- A container on its way into a frame. -/
structure Cargo where
  block : Block
  verdict : Verdict
  makers : List (Nat × Nat)
  ranges : List Range
  hop : Nat
  sat : Bool := false
  deriving DecidableEq, Repr

/-- R277: the port whose receive buffer holds the channel's first container, and that container. -/
def rxFirst (s : State) (ch : Nat) : Option (Nat × RxItem) :=
  ((List.range (nPorts s.hw)).filterMap (fun p =>
    ((getPort s p).buf.find? (fun i => i.channel == ch)).map (fun i => (p, i)))).head?

/-- The channel's containers in the order in which they are claimed. -/
def rxAll (s : State) (ch : Nat) : List (Nat × RxItem) :=
  match rxFirst s ch with
  | none => []
  | some (p, _) => ((getPort s p).buf.filter (fun i => i.channel == ch)).map (fun i => (p, i))

/-- Claim the first `n` containers of a channel of port p's buffer. -/
def claimRx (p ch n : Nat) (s : State) : State :=
  modPort p (fun q =>
    { q with buf := (q.buf.foldl (fun (a : Nat × List RxItem) i =>
        if i.channel == ch && 0 < a.1 then (a.1 - 1, a.2) else (a.1, a.2 ++ [i])) (n, [])).2 }) s

/-- A received container's own range while its verdict is open. -/
def rxRange (p : Nat) (i : RxItem) : List Range :=
  if i.verdict = .unsettled then [{ port := p, lo := i.seq, hi := i.seq }] else []

/-- The cluster a transfer names (R243). -/
def Transfer.cl (t : Transfer) (s : State) : Nat := physicalOf s t.cluster

/-- Pad slot of container k of a KIND 0x0 transfer, as it is sent: a tagged or fenced slot goes marked (log 71), a slot whose link
container was retracted goes unchanged and is retracted by a trailer (R280). -/
def padCargo (s : State) (t : Transfer) (k : Nat) : Option Cargo :=
  let cl := getCl s (t.cl s)
  let n := runSlot t.slot k
  if slotPending s (t.cl s) n then none
  else
    let p := padSlot cl n
    let gone := p.retracted && !slotFenced cl n
    some { block := if (p.poison && !gone) || slotFenced cl n then markPoison p.data else p.data
           verdict := if gone then .retracted else .confirmed, makers := []
           ranges := match p.pend with | some x => [{ port := x.1, lo := x.2, hi := x.2 }] | none => [], hop := 0 }

/-- The pack queue's containers for a port that have crossed to the link island. -/
def linkItems (s : State) (c p : Nat) : List PackItem :=
  (getCl s c).packQueue.filter (fun i => i.dest == .link p && i.arrived)

/-- A packed container as cargo: its own residue checks and its tile's ranges (R280, R283). -/
def packCargo (c : Nat) (i : PackItem) : Cargo :=
  { block := i.block, verdict := if i.residue = .retracted then .retracted else .confirmed
    makers := if i.residue = .unsettled then [(c, i.id)] else [], ranges := i.ranges, hop := 0 }

def rxCargo (p : Nat) (i : RxItem) : Cargo :=
  { block := i.block, verdict := if i.verdict = .retracted then .retracted else .confirmed, makers := [], ranges := rxRange p i,
    hop := i.hop + 1, sat := i.sat }

def chCargo (i : ChItem) : Cargo :=
  { block := i.block, verdict := i.verdict, makers := i.makers, ranges := i.ranges, hop := i.hop, sat := i.sat }

/-- R299, R300: the outputs in port p's queue that belong to the CHORUS in progress, of which `done` of `total` have left. -/
def chOwn (q : Port) (total done : Nat) : List ChItem := q.chOut.take (min total q.chPaired - done)

/-- The leading cargo of a list of options. -/
def leading {α : Type} : List (Option α) → List α
  | some a :: r => a :: leading r
  | _ => []

/-- Up to `n` containers that are ready to leave, in order; a dropped container of a forward ends the list (R275). -/
def readyCargo (s : State) (t : Transfer) (n : Nat) : List Cargo :=
  match t.kind with
  | 0 => leading ((List.range n).map (fun k => padCargo s t (t.done + k)))
  | 1 => ((linkItems s (t.cl s) t.port).take n).map (packCargo (t.cl s))
  | 4 => (((rxAll s t.channel).take n).takeWhile (fun e => !e.2.dropped)).map (fun e => rxCargo e.1 e.2)
  | 5 => ((chOwn (getPort s t.port) t.total t.done).take n).map chCargo
  | _ => []

/-- The first `n` crossed containers of a cluster's pack queue for a port leave it. -/
def takeLink (c p n : Nat) (s : State) : State :=
  let ids := ((linkItems s c p).take n).map (·.id)
  modCl c (fun cl => { cl with packQueue := cl.packQueue.filter (fun i => !(i.dest == .link p && ids.contains i.id)) }) s

/-- The sources give up `n` containers. -/
def takeCargo (t : Transfer) (n : Nat) (s : State) : State :=
  match t.kind with
  | 0 =>
    let c := t.cl s
    forEach (List.range n) (fun k s => if slotFenced (getCl s c) (runSlot t.slot (t.done + k)) then fencedAccess c s else s) s
  | 1 => takeLink (t.cl s) t.port n s
  | 4 => match rxFirst s t.channel with | some (p, _) => claimRx p t.channel n s | none => s
  | 5 => modPort t.port (fun q => { q with chOut := q.chOut.drop n }) s
  | _ => s

/-- R279: a container in a frame: marked when the partner does not accept its format. -/
def acceptCargo (s : State) (p : Nat) (c : Cargo) : Block × Bool :=
  if bitAt (obj s (lk p 5)) (hFormat c.block) then (c.block, false) else (markPoison c.block, true)

/-- Ticks lost to a full window so far (R281). -/
def endStall (p : Nat) (s : State) : State :=
  match (getPort s p).stalled with
  | none => s
  | some t => bump (lk p 19) (s.clock.tick - t) (modPort p (fun q => { q with stalled := none }) s)

/-- Change the transfer of sequencer q. -/
def modTransfer (q : Nat) (f : Transfer → Transfer) (s : State) : State :=
  modSeq q (fun sq => { sq with transfer := sq.transfer.map f }) s

def Transfer.ref (q : Nat) (t : Transfer) : OpRef := { q := q, op := t.op }

/-- R259: the container is poisoned data to the stream that sends it. -/
def Cargo.poisoned (c : Cargo) : Bool := hPoison c.block || c.verdict == .retracted

/-- R273: the next data frame of a transfer leaves with these containers; a stream that sends poisoned ones reports it (R259). -/
def sendData (q : Nat) (t : Transfer) (cs : List Cargo) (s : State) : State :=
  let p := t.port
  let n := cs.length
  let pt := getPort s p
  let bs := cs.map (acceptCargo s p)
  let open_ := cs.map (fun c => decide (verdictOf s c.verdict c.makers c.ranges ≠ .confirmed))
  let wire := (bs.zip open_).map (fun x => BitVec.ofNat 2048 (setFld x.1.1.toNat 7 1 (b2n x.2)))
  let items := cs.zipIdx.map (fun c => ({
    seq := (pt.txC + c.2) % 65536, prov := nth false open_ c.2, verdict := c.1.verdict, makers := c.1.makers, ranges := c.1.ranges, stream := t.stream } : TxItem))
  let sat := cs.any (·.sat) || (t.kind == 5 && (pt.chSat || (chOwn pt t.total t.done).any (·.sat)))
  let h : FrameHead :=
    { typ := 0, dst := t.peer, channel := t.channel, tenant := t.tenant, cexp := t.cexp, count := n, fseq := pt.txF, cseq := pt.txC
      prov := maskOf 32 (fun i => nth false open_ i), ord := t.done, hop := match cs with | c :: _ => c.hop | [] => 0
      flags := b2n (t.done + n == t.total) + 2 * b2n sat + 4 * b2n (t.kind == 5) }
  let s := takeCargo t n (bump (lk p 22) (bs.filter (·.2)).length s)
  let s := if cs.any (·.poisoned) then flagPoison t.stream s else s
  let s := endStall p s
  let s := modPort p (fun v => { v with window := v.window ++ items, txC := (v.txC + n) % 65536, chSat := v.chSat || (t.kind == 5 && sat) }) s
  let tr := takeTrailer p s
  let s := sendFrame p h wire tr.1 (modPort p (fun v => { v with txF := (v.txF + 1) % 65536 }) tr.2)
  opDone (t.ref q) n (modTransfer q (fun t => { t with done := t.done + n }) s)

/-- R281: a frame waits for its window. -/
def markStall (p : Nat) (s : State) : State :=
  modPort p (fun q => { q with stalled := match q.stalled with | some t => some t | none => some s.clock.tick }) s

/-! ## Transfers: what is received (R276, R277, R279, R282) -/

/-- R279, R282: what a claimed container is: its block as it is passed on, whether it is treated as poisoned. -/
def claimed (t : Transfer) (i : RxItem) : Block × Bool × Bool :=
  let foreign := !hPoison i.block && hTenant i.block != t.tenant
  let bad := foreign || hPoison i.block || i.verdict == .retracted
  (if bad then markPoison i.block else i.block, bad, foreign)

/-- The report and flags of a claim; a container marked here for its TENANT counts as poisoned when its verdict comes (R303). -/
def countClaim (q p : Nat) (t : Transfer) (i : RxItem) (bad foreign : Bool) (s : State) : State :=
  let s := if foreign && i.verdict == .unsettled then modPort p (fun q => { q with rxPoisoned := q.rxPoisoned ++ [i.seq] }) s else s
  let s := if foreign then
      raise { source := BitVec.ofNat 12 (srcRx p), cls := .contained, access := 5, op := BitVec.ofNat 8 (workOp s q 0x21),
              stream := BitVec.ofNat 10 (curStream s q), tenant := BitVec.ofNat 8 (curTenant s q) } s
    else s
  if bad then flagPoison t.stream s else s

/-- R275, R278: a position that is not filled. -/
def missOne (q : Nat) (t : Transfer) (k : Nat) (s : State) : State :=
  let s := if t.kind == 2 || t.kind == 3 then bump (lk t.port 20) 1 s else s
  let s := if t.kind == 2 then padTag (t.cl s) (runSlot t.slot k) s else s
  opDone (t.ref q) 1 (flagPoison t.stream s)

/-- A container of a KIND 0x2 transfer leaves for its pad slot (Table 11.5): it is written when the cluster takes the entry from queue
0x040 + c (R327). -/
def placePad (q p : Nat) (t : Transfer) (i : RxItem) (s : State) : State :=
  let r := claimed t i
  let c := t.cl s
  let slot := runSlot t.slot t.done
  let x : PadIn :=
    { slot := slot, pend := if i.verdict = .unsettled then some (p, i.seq) else none, poison := false, retracted := false, port := p
      by_ := t.ref q, stream := t.stream }
  let s := modCl c (fun cl => { cl with toPad := cl.toPad ++ [x] }) s
  countClaim q p t i r.2.1 r.2.2 (pushEntry (0x40 + c) (srcRx p) slot slot (containerWords r.1) s)

/-- A container of a KIND 0x3 transfer enters the port's memory hold. -/
def placeHold (q p : Nat) (t : Transfer) (i : RxItem) (s : State) : State :=
  let r := claimed t i
  let c := t.cl s
  let h : HoldItem :=
    { block := r.1, arrived := false, verdict := .confirmed, makers := [], ranges := rxRange p i, cluster := c
      desc := tensorOf s t.desc, off := t.off + t.done, by_ := t.ref q, stream := t.stream, tenant := t.tenant }
  let s := modPort t.port (fun v => { v with hold := v.hold ++ [h] }) s
  pushEntry (0x40 + c) (srcRx p) (16384 + t.port) (tdAddr h.desc h.off / 4096) (containerWords r.1) (countClaim q p t i r.2.1 r.2.2 s)

/-- R301: an output at the last hop goes to a tensor or to the ordering units. -/
def placeChorus (q : Nat) (t : Transfer) (i : ChItem) (s : State) : State :=
  let d := tensorOf s t.desc
  let c := t.cl s
  if tdKind d == 1 then
    let h : EaHold :=
      { queue := 0xA0 + t.port, arrived := false, block := some i.block, target := d, index := t.off + t.done, val := 0, exp := 0,
        ranges := i.ranges, verdict := i.verdict, makers := i.makers, by_ := t.ref q, stream := t.stream, tenant := t.tenant,
        cluster := c }
    pushEntry (0xA0 + t.port) (srcCh t.port) 0 (freeField s) (containerWords i.block) { s with eaHold := s.eaHold ++ [h] }
  else
    let h : HoldItem :=
      { block := i.block, arrived := false, verdict := i.verdict, makers := i.makers, ranges := i.ranges, cluster := c, desc := d,
        off := t.off + t.done, by_ := t.ref q, stream := t.stream, tenant := t.tenant }
    pushEntry (0x40 + c) (srcCh t.port) (16384 + t.port) (tdAddr d h.off / 4096) (containerWords i.block)
      (modPort t.port (fun v => { v with hold := v.hold ++ [h] }) s)

/-- R284: the ordering units' hold has room for another container or request that has crossed its queue. -/
def eaRoom (s : State) : Bool := decide ((s.eaHold.filter (·.arrived)).length < 64)

/-- R284, R334: the hold and the queue that a last-hop output or a received container would enter have room. -/
def holdRoom (s : State) (t : Transfer) : Bool :=
  if t.kind == 5 && tdKind (tensorOf s t.desc) == 1 then !queueFull s (0xA0 + t.port)
  else (t.kind == 2 || decide ((getPort s t.port).hold.length < 64)) && !queueFull s (0x40 + t.cl s)

/-- R301: the transfer is at its last hop. -/
def lastHop (s : State) (t : Transfer) : Bool := t.kind == 5 && t.peer == instanceId s

/-! ## Progress of transfers -/

/-- What a transfer can do next. -/
inductive Move where
  | none
  | stall
  | frame (cs : List Cargo)
  | skip (port : Nat)
  | recv (port : Nat) (i : RxItem)
  | last (i : ChItem)
  deriving DecidableEq, Repr

/-- The next move of the transfer of a link sequencer. -/
def nextMove (s : State) (t : Transfer) : Move :=
  if t.dead || s.plan.testSlot || s.faults.fatal || t.total ≤ t.done then .none
  else if t.kind == 2 || t.kind == 3 then
    match rxFirst s t.channel with
    | some (p, i) => if i.dropped then .skip p else if holdRoom s t then .recv p i else .none
    | none => .none
  else if lastHop s t then
    match chOwn (getPort s t.port) t.total t.done with
    | i :: _ => if holdRoom s t then .last i else .none
    | [] => .none
  else
    match (if t.kind == 4 then rxFirst s t.channel else none) with
    | some (p, ⟨_, _, _, _, _, _, true, _⟩) => .skip p
    | _ =>
      let n := min 32 (t.total - t.done)
      let cs := readyCargo s t n
      -- a dropped container of a forward splits the frame (R275)
      let cut := t.kind == 4 && ((rxAll s t.channel).take n).any (fun e => e.2.dropped)
      if cs.isEmpty || (cs.length < n && !cut) then .none
      else if 64 < (getPort s t.port).window.length + cs.length then .stall
      else .frame cs

/-- One move. -/
def doMove (q : Nat) (t : Transfer) (m : Move) (s : State) : State :=
  let next (s : State) : State := modTransfer q (fun t => { t with done := t.done + 1 }) s
  match m with
  | .none => s
  | .stall => markStall t.port s
  | .frame cs => sendData q t cs s
  | .skip p => next (missOne q t t.done (claimRx p t.channel 1 s))
  | .recv p i =>
    let s := claimRx p t.channel 1 s
    next (if t.kind == 2 then placePad q p t i s else placeHold q p t i s)
  | .last i => next (placeChorus q t i (modPort t.port (fun v => { v with chOut := v.chOut.drop 1 }) s))

/-- The opcode of the instruction of a transfer (Table 9.2). -/
def Transfer.opcode (t : Transfer) : Nat := if t.kind == 5 then 0x22 else if t.kind == 2 || t.kind == 3 then 0x21 else 0x20

/-- R30: the transfer waits for a container from the surroundings: a pad slot of its next frame not yet filled, a link container not yet
arrived, for a forward any of its next frame, unless a dropped one cuts it (R275). -/
def lateMove (s : State) (t : Transfer) : Bool :=
  let n := min 32 (t.total - t.done)
  !t.dead && !s.plan.testSlot && !s.faults.fatal && decide (t.done < t.total)
  && (if t.kind == 0 then (List.range n).any (fun k => slotPending s (t.cl s) (runSlot t.slot (t.done + k)))
      else if t.kind == 1 then false
      else if t.kind == 4 then
        let l := (rxAll s t.channel).take n
        decide (l.length < n) && !l.any (fun e => e.2.dropped)
      else if t.kind == 5 then decide ((getPort s t.port).chPaired < t.total) && (rxFirst s t.channel).isNone
      else (rxFirst s t.channel).isNone)

/-- R30, R324: the wait is reported once, as a plan overrun of the link sequencer. -/
def reportLate (q : Nat) (t : Transfer) (s : State) : State :=
  if lateMove s t && !t.late then
    raiseOverrun q (seqSource q) t.opcode (modTransfer q (fun t => { t with late := true }) s)
  else s

/-- Moves of one sequencer's transfer until it must wait. -/
def pumpSeq (q : Nat) : Nat → State → State
  | 0, s => s
  | n + 1, s =>
    match (getSeq s q).transfer with
    | none => s
    | some t =>
      match nextMove s t with
      | .none => reportLate q t s
      | .stall => doMove q t .stall s
      | m => pumpSeq q n (doMove q t m s)

/-- Every transfer goes on as far as it can (at most CNT + 1 = 1,024 moves). -/
def pumpAll (s : State) : State := forEach (linkSeqs s) (fun q s => pumpSeq q 1025 s) s

/-- After verdicts: what waited leaves, and transfers go on. -/
def settleLinks (s : State) : State := pumpAll (settleAll s)

/-! ## The instructions (R225, R276, R296) -/

/-- R278: at the end of a transfer's ceiling. What the engine combined for later CHORUS instructions stays (R300). -/
def endTransfer (q : Nat) (s : State) : State :=
  match (getSeq s q).transfer with
  | none => s
  | some t =>
    let short := t.total - t.done
    let s := endStall t.port s
    let s := forEach (List.range short) (fun k s => missOne q t (t.done + k) s) s
    let s := if t.kind == 1 then takeLink (t.cl s) t.port short s
      else if t.kind == 5 then takeLink (t.cl s) t.port (t.total - (getPort s t.port).chPaired) s else s
    let s := if t.kind == 5 then
        modPort t.port (fun v => { v with
          chOut := v.chOut.drop (min t.total v.chPaired - t.done), chPaired := v.chPaired - t.total, chSat := false }) s
      else s
    modSeq q (fun sq => { sq with transfer := none }) s

/-- A transfer begins: a port that is not UP sends and receives nothing for it (R290). -/
def startTransfer (q xd n slot off : Nat) (s : State) : State :=
  let s := endTransfer q s
  let d := transferOf s xd
  let t : Transfer :=
    { kind := xdKind d, port := xdPort d, cluster := xdCluster d, desc := xdDesc d, peer := xdPeer d, channel := xdChannel d
      tenant := xdTenant d, cexp := xdCexp d, slot := slot, off := off, total := n, done := 0
      dead := (getPort s (xdPort d)).st != 2, late := false, op := (getSeq s q).nextOp, stream := curStream s q }
  pumpAll (modSeq q (fun sq => { sq with transfer := some t }) (opOpen q n s))

/-- SEND, RECV and CHORUS move CNT + 1 containers as their transfer descriptor states. -/
def linkWalk (i : Instr) (q : BitVec 6) (xsel : BitVec 2) (xdesc : BitVec 12) (cnt : BitVec 10) (slot : BitVec 14)
    (off : BitVec 20) (s : State) : Host.Outcome State Fault Refusal :=
  walkOutcome i q s fun s =>
    let sq := getSeq s q.toNat
    walk i q.toNat .lk (ceilLink s (xdPort (transferOf s xdesc.toNat)) (cnt.toNat + 1))
      (startTransfer q.toNat xdesc.toNat (cnt.toNat + 1) (effective sq xsel 14 slot.toNat) (effective sq xsel 20 off.toNat)) s

/-- SEND. -/
def execSend (q : BitVec 6) (xsel : BitVec 2) (xdesc : BitVec 12) (cnt : BitVec 10) (slot : BitVec 14) (off : BitVec 20)
    (s : State) : Host.Outcome State Fault Refusal :=
  linkWalk (.send q xsel xdesc cnt slot off) q xsel xdesc cnt slot off s

/-- RECV. -/
def execRecv (q : BitVec 6) (xsel : BitVec 2) (xdesc : BitVec 12) (cnt : BitVec 10) (slot : BitVec 14) (off : BitVec 20)
    (s : State) : Host.Outcome State Fault Refusal :=
  linkWalk (.recv q xsel xdesc cnt slot off) q xsel xdesc cnt slot off s

/-- CHORUS. -/
def execChorus (q : BitVec 6) (xsel : BitVec 2) (xdesc : BitVec 12) (cnt : BitVec 10) (slot : BitVec 14) (off : BitVec 20)
    (s : State) : Host.Outcome State Fault Refusal :=
  linkWalk (.chorus q xsel xdesc cnt slot off) q xsel xdesc cnt slot off s

/-- CEILING_END (R278): the ceiling of sequencer q's transfer expires. -/
def execCeilingEnd (q : BitVec 6) (s : State) : Host.Outcome State Fault Refusal :=
  guarded (seqExists s.hw q.toNat) s (endTransfer q.toNat)

/-! ## The chorus engine (R296 to R300) -/

/-- R300: the CHORUS that the engine's next pair is for, `skip` pairs having been combined from this word of the program on, and how many
pairs it has combined once that CHORUS is done. At most one word issues in a tick, so a slot issues at most `fuel` words. -/
def chorusFrom (s : State) (q : Nat) (prog : List Word) (skip : Nat) : Nat → Nat → Nat → List LoopFrame → Option (Nat × Nat)
  | 0, _, _, _ => none
  | fuel + 1, upTo, pc, loops =>
    let next (upTo : Nat) : Option (Nat × Nat) :=
      let a := advancePc pc loops
      chorusFrom s q prog skip fuel upTo a.1 a.2
    match prog[pc]? with
    | none => none
    | some w =>
      match decodeWalk (BitVec.ofNat 6 q) w with
      | none => none
      | some i =>
        match i with
        | .endProg _ => none
        | .loop _ n l => chorusFrom s q prog skip fuel upTo (pc + 1) ({ first := pc + 1, last := pc + l.toNat, left := n.toNat } :: loops)
        | .chorus _ _ xd cnt _ _ =>
          let n := upTo + cnt.toNat + 1
          if skip < n then some (transferOf s xd.toNat, n) else next n
        | _ => next upTo

/-- R300: the same from the word that the sequencer of the slot in progress issues next. -/
def nextChorus (s : State) (q upTo : Nat) : Option (Nat × Nat) :=
  let sq := getSeq s q
  match sq.running, seqImage s q with
  | true, some si => chorusFrom s q si.prog (getPort s (q - 32)).chPaired (min sq.length 65536) upTo sq.pc sq.loops
  | _, _ => none

/-- The transfer a port's chorus engine combines for, and the pairs combined once it is done: the CHORUS in progress, or, from the slot's
start on and whatever other transfer is in progress, the next one of the slot's program whose pairs are not all combined (R300). A CHORUS
whose port lost the link, or was not UP at its issue, receives nothing further (R290). -/
def chorusJob (s : State) (p : Nat) : Option (Nat × Nat) :=
  match (getSeq s (32 + p)).transfer with
  | some t =>
    if t.kind == 5 then
      if t.dead then none
      else if (getPort s p).chPaired < t.total then
        some (put (t.kind) 252 4 + put t.port 248 4 + put t.cluster 243 5 + put t.desc 231 12
          + put t.peer 219 12 + put t.channel 209 10 + put t.tenant 201 8 + put (twos 8 t.cexp) 193 8, t.total)
      else nextChorus s (32 + p) t.total
    else nextChorus s (32 + p) 0
  | none => nextChorus s (32 + p) 0

/-- One input of the engine: its elements, VALID_COUNT, whether it is treated as poisoned, its range of anomalies, CH_EXP. -/
structure ChIn where
  vals : List Int
  count : Nat
  bad : Bool
  anoms : Anoms
  expMiss : Bool
  deriving DecidableEq, Repr

/-- R298: an input as the engine takes it. -/
def chorusIn (cexp : Int) (v : Seen) (lost : Bool) : ChIn :=
  match fmtOf 0x20 with
  | none => { vals := [], count := 0, bad := true, anoms := {}, expMiss := false }
  | some f =>
    let miss := hExp v.block != cexp
    let bad := v.poisoned || lost || miss
    let e := if bad then expandPoisoned f else expandBlock f false v.count v.block
    { vals := e.vals, count := v.count, bad := bad, anoms := e.anoms, expMiss := miss }

/-- R298: the sums, saturated, and how many saturated. -/
def chorusSum (a b : List Int) : List Int × Nat :=
  let raw := List.zipWith (· + ·) a b
  let out := raw.map (satTo (2 ^ 31 - 1))
  (out, ((raw.zip out).filter (fun x => x.1 != x.2)).length)

/-- R298: the output container. -/
def chorusBlock (s : State) (p x : Nat) (a b : ChIn) : Block × Nat :=
  let bad := a.bad || b.bad
  let r := chorusSum a.vals b.vals
  let nz := (r.1.filter (· != 0)).length
  let f : Fmt := ⟨0x20, 56, 224, 1, 56, 56⟩
  let h : Header :=
    { format := 0x20, poison := bad, epoch := epochOf s, tenant := xdTenant x, exp := xdCexp x, count := max a.count b.count
      density := densityOf f nz, zeroChan := nz == 0, rotated := false, rowTail := false, stochastic := false, transposable := false
      predicted := false, prodInst := instanceId s, prodUnit := srcCh p, tensorSeq := tdTseq (tensorOf s (xdDesc x)), scaleMant := 0 }
  (encodeCheck (rawBlock h (encCx r.1)), if bad then 0 else r.2)

/-- R298: upstream item `u` of port `up` and local item `i` make an output of port p's engine. The spec does not say whether the engine
checks FORMAT and EXP of an upstream container that was dropped for its epoch (R275): here it does, as of any input (log 185). -/
def combine (p x up : Nat) (u : RxItem) (i : PackItem) (s : State) : State :=
  let c := physicalOf s (xdCluster x)
  let st := curStream s (32 + p)
  let tn := curTenant s (32 + p)
  let vu := inspect { expect := some 0x20 } u.block
  let vl := inspect { expect := some 0x20 } i.block
  -- corrections and marks of the upstream container were counted at its arrival, and a header anomaly counts once (R85)
  let vu := { vu with poisonSeen := false, fixed := 0, bad := false, headerAnomaly := vu.headerAnomaly && !u.counted }
  let s := countSeen none vu s
  let s := reportSeen (srcCh p) 0 0 0x22 st tn vl (countSeen none vl s)
  let a := chorusIn (xdCexp x) vu (u.dropped || u.verdict == .retracted)
  let b := chorusIn (xdCexp x) vl false
  let s := countAnoms none (a.anoms.add b.anoms) s
  let s := bump (lk p 24) (b2n a.expMiss + b2n b.expMiss) s
  let o := chorusBlock s p x a b
  let s := bump (lk p 23) o.2 s
  let s := if a.bad || b.bad || i.residue == .retracted then flagPoison st s else s
  let sat := o.2 != 0 || u.sat
  let s := if sat && xdPeer x == instanceId s then flagSat st s else s
  let s := takeLink c p 1 s
  let s := claimRx up (xdChannel x) 1 s
  let local_ := packCargo c i
  modPort p (fun v => { v with
    chOut := v.chOut ++ [{ id := v.nextCh, block := o.1, verdict := retractIf (u.verdict == .retracted) local_.verdict
                           makers := (256 + p, v.nextCh) :: local_.makers, ranges := mergeRanges local_.ranges (rxRange up u)
                           hop := u.hop + 1, sat := sat, stream := st }]
    nextCh := v.nextCh + 1, chPaired := v.chPaired + 1 }) s

/-- CHORUS_COMBINE (R298, R300): both inputs of the next container are present. -/
def execChorusCombine (p : BitVec 4) (s : State) : Host.Outcome State Fault Refusal :=
  guarded (p.toNat < nPorts s.hw) s fun s =>
    let p := p.toNat
    let v := getPort s p
    match chorusJob s p with
    | none => s
    | some (x, n) =>
      match rxFirst s (xdChannel x), linkItems s (physicalOf s (xdCluster x)) p with
      | some (up, u), i :: _ =>
        whenS (decide (v.chPaired < n) && decide (v.chOut.length < 64) && !s.plan.testSlot && !v.fenced && !s.faults.fatal) s fun s =>
          pumpAll (combine p x up u i s)
      | _, _ => s

/-! ## Verdicts of makers (R280) -/

/-- The residue verdict of a maker's container settles. -/
def makerVerdict (m : Maker) (confirm : Bool) (s : State) : State :=
  match m with
  | .pack c item => settleLinks (settleMaker (c.toNat, item) confirm (settlePack c.toNat item confirm s))
  | .chorus p item => settleLinks (settleMaker (256 + p.toNat, item) confirm s)

/-- The maker's unit exists. -/
def makerPresent (hw : Hw) : Maker → Bool
  | .pack c _ => c.toNat < nClusters hw
  | .chorus p _ => p.toNat < nPorts hw

/-- PRODUCER_VERDICT. -/
def execProducerVerdict (maker : Maker) (confirm : Bool) (s : State) : Host.Outcome State Fault Refusal :=
  guarded (makerPresent s.hw maker) s (makerVerdict maker confirm)

end Sys2Proof.Machine
end

