-- ==== Sys2Proof/Machine/LinkRx.lean ====
section
/-! DEFINITION. What arrives at a link port (11): the arrival checks, containers and verdicts of a frame, link loss,
resynchronisation, verdict-only frames. -/

namespace Sys2Proof.Machine

/-! ## Fields of a received frame (Tables 11.1 and 11.2) -/

def fhVersion (f : Frame) : Nat := fld f.header.toNat 0 8
def fhType (f : Frame) : Nat := fld f.header.toNat 8 4
def fhEpoch (f : Frame) : Nat := fld f.header.toNat 12 12
def fhSrc (f : Frame) : Nat := fld f.header.toNat 24 12
def fhChannel (f : Frame) : Nat := fld f.header.toNat 48 10
def fhTenant (f : Frame) : Nat := fld f.header.toNat 58 8
def fhCount (f : Frame) : Nat := fld f.header.toNat 74 6
def fhFseq (f : Frame) : Nat := fld f.header.toNat 80 16
def fhCseq (f : Frame) : Nat := fld f.header.toNat 96 16
def fhProv (f : Frame) (i : Nat) : Bool := bitAt f.header.toNat (112 + i)
def fhHop (f : Frame) : Nat := fld f.header.toNat 164 8
def fhSat (f : Frame) : Bool := bitAt f.header.toNat 173
def ftVbase (f : Frame) : Nat := fld f.trailer.toNat 0 16
def ftVcount (f : Frame) : Nat := fld f.trailer.toNat 16 7
def ftVbit (f : Frame) (i : Nat) : Bool := bitAt f.trailer.toNat (32 + i)
def ftVbits (f : Frame) : Nat := fld f.trailer.toNat 32 64

/-- Table 11.3, order 1; the frame's containers are COUNT (R269). -/
def frameWhole (f : Frame) : Bool :=
  fld f.header.toNat 224 32 == crc32c (toBytes 28 f.header.toNat) && fld f.trailer.toNat 96 32 == crc32c (toBytes 12 f.trailer.toNat)
  && fhVersion f == 1 && fhType f ≤ 3
  && (if fhType f == 0 then 1 ≤ fhCount f && fhCount f ≤ 32 else fhCount f == 0) && f.containers.length == fhCount f

/-- Table 11.3, order 2. -/
def frameInSequence (q : Port) (f : Frame) : Bool :=
  fhFseq f == q.rxF && fhCseq f == q.rxC && ftVbase f == q.rxV
  && ftVcount f ≤ (q.rxC + fhCount f + 65536 - q.rxV) % 65536

/-- R294: an Ethernet frame for this port. -/
def ethAccepts (q : Port) (f : Frame) : Bool :=
  if q.ethMode == 0 then true
  else match f.eth with | some (ty, dst) => ty.toNat == q.ethType && dst.toNat == q.ethSrc | none => false

/-! ## Link loss and resynchronisation (R290, R291) -/

/-- R290, second and third: sequence numbers, window and ACCEPT_PARTNER go, open containers are retracted, the transfers of the
port send and receive nothing further. -/
def dropLink (p : Nat) (s : State) : State :=
  let q := getPort s p
  let s := bumpIf (q.st == 2) (lk p 18) 1 s
  let s := forEach q.rxOpen (retractSeq p) s
  let s := forEach (linkSeqs s) (fun k s => modTransfer k (fun t => if t.port == p then { t with dead := true } else t) s) s
  let s := endStall p s
  setObj (lk p 5) 0
    (modPort p (fun q => { q with
      txF := 0, txC := 0, window := [], rxF := 0, rxC := 0, rxV := 0, rxOpen := [], rxPoisoned := [], owed := []
      partnerSeen := false, st := 0 }) s)

/-- Table 11.8, step 1, from step 11 of a start on (R392, R398); ACCEPT_LOCAL and the Ethernet objects take effect here (R304). -/
def startResync (p : Nat) (s : State) : State :=
  let q := getPort s p
  if !q.layerUp || q.fenced || s.faults.fatal || s.boot.phase != .ready then s
  else
    sendResync p 2 (setPort p { q with
      st := 1, partnerSeen := false, ethMode := obj s (lk p 6), ethType := obj s (lk p 7), ethDst := obj s (lk p 8)
      ethSrc := obj s (lk p 9), ethTag := obj s (lk p 10), acceptLocal := obj s (lk p 4) } s)

/-- R288, R291: a port enters resynchronisation at an epoch write or on an epoch that is not current; one in progress begins again with
the present epoch (Table 11.8, step 1). -/
def resyncPort (p : Nat) (s : State) : State := settleLinks (startResync p (dropLink p s))

/-- R290: the link is lost: the port enters DOWN, or RESYNC if the link layer still reports up. The resynchronisation that an epoch write
of the same frame began goes on: R303, "An epoch write and a link loss in one frame lead to one resynchronisation". -/
def loseLink (p : Nat) (s : State) : State :=
  let q := getPort s p
  let s := notify 2 (0x6000 + p) 1 s
  if q.epochResync && q.st == 1 && q.layerUp && !q.fenced then settleLinks s else resyncPort p s

/-- A contained fault against the receive expander of port p, with the slot and the instruction that its link sequencer has in progress (R354). -/
def raiseRx (p access : Nat) (s : State) : State := raiseIn (32 + p) (opOn s (32 + p) .lk) (srcRx p) .contained access 0 0 0 0 s

/-- R275, orders 1 and 2: FRAME_ERR, a contained link fault against the port, the link lost. -/
def frameError (p : Nat) (s : State) : State :=
  loseLink p (raiseRx p 7 (bump (lk p 17) 1 s))

/-! ## Containers and verdicts -/

/-- R287: the class of an epoch: EPOCH_AHEAD or EPOCH_STALE advances. -/
def countEpoch (p x : Nat) (s : State) : State :=
  let d := (x + 4096 - epochOf s % 4096) % 4096
  if d == 0 then s else if d ≤ 2047 then bump (lk p 16) 1 s else bump (lk p 15) 1 s

/-- R275: one container of a data frame, decoded and stored in the receive buffer; `foreign` when order 5 failed. -/
def storeContainer (p : Nat) (f : Frame) (foreign : Bool) (i : Nat) (b : Block) (s : State) : State :=
  let v := inspect {} b
  let s := reportSeen (srcRx p) 0 0 (opOn s (32 + p) .lk) (curStream s (32 + p)) (curTenant s (32 + p)) v (countSeen none v s)
  let stale := !v.bad && hEpoch v.block != epochOf s % 4096
  let s := if stale then countEpoch p (hEpoch v.block) s else s
  let blk := if foreign then markPoison v.block else v.block
  let q := getPort s p
  let x := q.rxC
  let prov := fhProv f i && !stale
  let item : RxItem :=
    { block := BitVec.ofNat 2048 (setFld blk.toNat 7 1 0), channel := fhChannel f, seq := x
      verdict := if prov then .unsettled else .confirmed, hop := fhHop f, sat := fhSat f, dropped := stale
      counted := v.headerAnomaly }
  setPort p { q with
    rxC := (x + 1) % 65536, rxOpen := if prov then q.rxOpen ++ [x] else q.rxOpen
    rxPoisoned := if prov && (v.poisoned || foreign) then q.rxPoisoned ++ [x] else q.rxPoisoned, buf := q.buf ++ [item] } s

/-- Table 11.3, order 5: a transfer bound to the channel has another tenant. -/
def foreignFrame (s : State) (f : Frame) : Bool :=
  (linkSeqs s).any (fun k => match (getSeq s k).transfer with
    | some t => 2 ≤ t.kind && t.channel == fhChannel f && t.done < t.total && t.tenant != fhTenant f
    | none => false)

/-- The containers of a data frame. -/
def storeFrame (p : Nat) (f : Frame) (s : State) : State :=
  let foreign := foreignFrame s f
  let s := if foreign then raiseRx p 5 s else s
  forEach f.containers.zipIdx (fun x s => storeContainer p f foreign x.2 x.1 s) s

/-- R281, R282: the trailer settles the oldest VCOUNT containers in order. -/
def applyVerdicts (p : Nat) (f : Frame) (s : State) : State :=
  let v := (getPort s p).rxV
  let s := forEach (List.range (ftVcount f)) (fun i s =>
    if ftVbit f i then bump (lk p 14) 1 (retractSeq p ((v + i) % 65536) s) else confirmSeq p ((v + i) % 65536) s) s
  modPort p (fun q => { q with rxV := (v + ftVcount f) % 65536 }) s

/-- A data or verdict-only frame that passed orders 1 to 3. -/
def acceptFrame (p : Nat) (f : Frame) (s : State) : State :=
  let s := bump (lk p 12) 1 (modPort p (fun q => { q with rxF := (q.rxF + 1) % 65536 }) s)
  let s := if fhType f == 0 then storeFrame p f s else s
  settleLinks (applyVerdicts p f s)

/-! ## Resynchronisation frames (Table 11.8) -/

/-- Steps 3 and 5: a partner's request; a held port that finds another epoch than before resynchronises first. -/
def partnerRequest (p : Nat) (f : Frame) (s : State) : State :=
  let q := getPort s p
  let e := fhEpoch f
  let again := q.st == 3 && e != q.heldEpoch
  let s := if again then resyncPort p s else s
  let s := setObj (lk p 2) (fhSrc f) (setObj (lk p 3) e (setObj (lk p 5) (ftVbits f) s))
  bump (lk p 12) 1 (sendResync p 3 (modPort p (fun q => { q with partnerSeen := true }) s))

/-- Steps 4 and 5: a partner's acknowledge; step 4 alone comes after step 3. -/
def partnerAck (p : Nat) (f : Frame) (s : State) : State :=
  let q := getPort s p
  let s := bump (lk p 12) 1 s
  if q.st == 1 then
    let e := fhEpoch f
    let d := (e + 4096 - epochOf s % 4096) % 4096
    if d == 0 then
      whenS q.partnerSeen s fun s => pumpAll (modPort p (fun q => { q with st := 2, txF := 0, txC := 0, window := [], rxF := 0, rxC := 0, rxV := 0, rxOpen := [], rxPoisoned := [] }) s)
    else
      let s := countEpoch p e (modPort p (fun q => { q with st := 3, heldEpoch := e }) s)
      if d ≤ 2047 then notify 7 (0x6000 + p) 16 s else s
  else s

/-- R268, R277: the receive buffer's 1,024 slots can take the frame's containers. A dropped container holds no slot. -/
def bufferTakes (q : Port) (f : Frame) : Bool :=
  decide ((q.buf.filter (fun i => !i.dropped)).length + f.containers.length ≤ 1024)

/-- A frame arrives at port p (R275, R293, R294). Data and verdict-only frames are acted on only by an UP port; a full receive buffer
withholds the handshake of a data frame, and nothing of it is taken (R277, R440). Order 3 is an UP port's: in RESYNC and HELD the epoch of
a resync frame is for Table 11.8. -/
def rxFrame (p : Nat) (f : Frame) (s : State) : State :=
  let q := getPort s p
  if !q.layerUp || q.fenced || q.st == 0 || s.faults.fatal then s
  else if !ethAccepts q f then bump (lk p 21) 1 s
  else if !frameWhole f then frameError p s
  else if fhType f ≤ 1 && q.st != 2 then s
  else if fhType f == 0 && !bufferTakes q f then s
  else if !frameInSequence q f then frameError p s
  else if q.st == 2 && fhEpoch f != epochOf s % 4096 then resyncPort p s
  else if fhType f == 2 then partnerRequest p f s
  else if fhType f == 3 then partnerAck p f s
  else acceptFrame p f s

/-- DATA_FRAME_RX (R275). -/
def execDataFrameRx (p : BitVec 4) (f : Frame) (s : State) : Host.Outcome State Fault Refusal :=
  guarded (p.toNat < nPorts s.hw) s (rxFrame p.toNat f)

/-- VERDICT_FRAME_RX (R282). -/
def execVerdictFrameRx (p : BitVec 4) (f : Frame) (s : State) : Host.Outcome State Fault Refusal :=
  guarded (p.toNat < nPorts s.hw) s (rxFrame p.toNat f)

/-- RESYNC_ACK_RX (R291). -/
def execResyncAckRx (p : BitVec 4) (f : Frame) (s : State) : Host.Outcome State Fault Refusal :=
  guarded (p.toNat < nPorts s.hw) s (rxFrame p.toNat f)

/-! ## The link layer and the port's own times -/

/-- LINK_UP (R291, step 1). With filtered PWR_OK low the block sees and drives nothing (R441). -/
def execLinkUp (p : BitVec 4) (s : State) : Host.Outcome State Fault Refusal :=
  guarded (p.toNat < nPorts s.hw) s fun s =>
    let q := getPort s p.toNat
    if q.layerUp || !powered s then s else startResync p.toNat (setPort p.toNat { q with layerUp := true } s)

/-- LINK_DOWN (R290). -/
def execLinkDown (p : BitVec 4) (s : State) : Host.Outcome State Fault Refusal :=
  guarded (p.toNat < nPorts s.hw) s fun s =>
    let q := getPort s p.toNat
    if q.layerUp && powered s then loseLink p.toNat (setPort p.toNat { q with layerUp := false } s) else s

/-- RESYNC_REPEAT (Table 11.8, step 2). -/
def execResyncRepeat (p : BitVec 4) (s : State) : Host.Outcome State Fault Refusal :=
  guarded (p.toNat < nPorts s.hw) s fun s =>
    let q := getPort s p.toNat
    whenS (q.st == 1 && !q.partnerSeen) s (sendResync p.toNat 2)

/-- RESYNC_TIMEOUT (Table 11.8, step 6). -/
def execResyncTimeout (p : BitVec 4) (s : State) : Host.Outcome State Fault Refusal :=
  guarded (p.toNat < nPorts s.hw) s fun s => whenS ((getPort s p.toNat).st == 1) s (startResync p.toNat)

/-- R274: the port's link sequencer is idle, or waits for a WAITT target at least VOF ticks away. -/
def mayInterject (s : State) (q : Nat) : Bool :=
  let sq := getSeq s q
  !sq.running || (match sq.waitTarget with
    | some _ => s.clock.tick - sq.start + ceilVerdictOnly s ≤ sq.mapped (sq.planned .free)
    | none => false)

/-- VERDICT_ONLY_SEND (R274). -/
def execVerdictOnlySend (p : BitVec 4) (s : State) : Host.Outcome State Fault Refusal :=
  guarded (p.toNat < nPorts s.hw) s fun s =>
    whenS ((getPort s p.toNat).st == 2 && verdictsDue s p.toNat && !s.plan.testSlot && !s.faults.fatal && mayInterject s (32 + p.toNat)) s
      fun s => pumpAll (sendVerdicts p.toNat s)

/-- VERDICT_TIMEOUT (R285): a container held unsettled for 10 µs is retracted; the link is lost. -/
def execVerdictTimeout (p : BitVec 4) (s : State) : Host.Outcome State Fault Refusal :=
  guarded (p.toNat < nPorts s.hw) s fun s =>
    whenS (powered s && !(getPort s p.toNat).rxOpen.isEmpty && !s.plan.testSlot) s fun s => loseLink p.toNat (bump (lk p.toNat 14) 1 s)

end Sys2Proof.Machine
end

