-- ==== Sys2Proof/Machine/QueueRead.lean ====
section
/-! DEFINITION. Reading an inter-island queue (R332, R333, Table 13.5), and the islands' windows and droops (R321, R323). -/

namespace Sys2Proof.Machine

/-- The 32 container words of an entry as read. -/
def entryBlock (ws : List WordOut) : Block := wordsBlock ((ws.drop 1).map WordOut.data)

/-- Change the first element that `hit` selects; `none` removes it. -/
def changeFirst {α : Type} (hit : α → Bool) (f : α → Option α) : List α → List α
  | [] => []
  | a :: r => if hit a then (match f a with | some b => b :: r | none => r) else a :: changeFirst hit f r

/-- The pad slot takes the words as read, where the queue changed them. -/
def repairSlot (c slot : Nat) (was now : Block) (s : State) : State :=
  if was == now || (padSlot (getCl s c) slot).data != was then s else padModify c slot (fun p => { p with data := now }) s

/-- What the cluster does with a read response (R55, R105, R216): the pad slot keeps the words as read; a tile or scale entries are
restored from them; of a bad packet the slot is tagged, the tile is poisoned, the entries are cleared (Table 13.5). A raw block marked uncorrectable is
poisoned data to the stream that reads it (R259); a pad slot is consumed when a lane or a SEND reads it. -/
def useBlock (c : Nat) (r : ReadReq) (ue bad : Bool) (was now : Block) (s : State) : State :=
  let consumed (s : State) : State := if ue || bad then flagPoison r.stream s else s
  match r.use with
  | .pad slot => if bad then padTag c slot s else repairSlot c slot was now s
  | .restore uid b => restoreTile c uid b now (!ue && !bad) (consumed s)
  | .scale e0 n ts base qmax b => restoreScale c e0 n ts base qmax b now (!ue && !bad) (consumed s)

/-- Read response (R327): the cluster takes the oldest one, and that part of its operation is complete (R231). -/
def takeResponse (c : Nat) (bad : Bool) (was now : Block) (s : State) : State :=
  match (getCl s c).arrived with
  | [] => s
  | a :: rest => opDone a.req.by_ 1 (useBlock c a.req a.ue bad was now (modCl c (fun cl => { cl with arrived := rest }) s))

/-- Write (R259): the fabric write port drives the request, or makes no write. The free entry lets waiting writes follow (R334). -/
def writeEntry (c : Nat) (bad : Bool) (now : Block) (s : State) : State :=
  match (getCl s c).toWrite with
  | [] => s
  | w :: rest =>
    let s := modCl c (fun cl => { cl with toWrite := rest }) s
    settleAll (if bad then opDone w.by_ 1 (flagPoison w.stream s)
      else emit (.fabricWrite c w.word now) (modCl c (fun cl => { cl with writes := cl.writes ++ [{ w with data := now }] }) s))

/-- R278: of a bad packet the position counts as not filled. -/
def lostPad (c : Nat) (x : PadIn) (s : State) : State := flagPoison x.stream (bump (lk x.port 20) 1 (padTag c x.slot s))

/-- R282: the container is written into its pad slot, with the tags that its verdict has given it. -/
def writePad (c : Nat) (x : PadIn) (now : Block) (s : State) : State :=
  padModify c x.slot (fun _ => { data := now, poison := x.poison, fill := none, pend := x.pend, retracted := x.retracted }) s

/-- Link delivery to cluster c: a pad slot, or the memory hold of port `slot` - 16,384 (R278 where the packet is bad). -/
def deliverEntry (c slot : Nat) (bad : Bool) (now : Block) (s : State) : State :=
  if slot < 16384 then
    match (getCl s c).toPad with
    | [] => s
    | x :: rest =>
      let s := modCl c (fun cl => { cl with toPad := rest }) s
      opDone x.by_ 1 (if bad then lostPad c x s else writePad c x now s)
  else
    let p := slot - 16384
    let hit (h : HoldItem) : Bool := !h.arrived && h.cluster == c
    match (getPort s p).hold.find? hit with
    | none => s
    | some h =>
      let t := modPort p (fun q => { q with hold := changeFirst hit (fun h => if bad then none else some { h with arrived := true, block := now }) q.hold }) s
      settleLinks (if bad then bump (lk p 20) 1 (opDone h.by_ 1 (flagPoison h.stream t)) else t)

/-- Link send: the packed container `id` reaches the link island (R278 where the packet is bad). -/
def sendEntry (c id : Nat) (bad : Bool) (now : Block) (s : State) : State :=
  let hit (i : PackItem) : Bool := !i.toMem && i.id == id
  match (getCl s c).packQueue.find? hit with
  | none => s
  | some i =>
    let t := modCl c (fun cl => { cl with
      packQueue := changeFirst hit (fun i => if bad then none else some { i with arrived := true, block := now }) cl.packQueue }) s
    pumpAll (if bad then flagPoison i.stream t else t)

/-- Far-target update or last-hop output at the ordering island (R264 and R278 where the packet is bad). -/
def orderEntry (q : Nat) (bad : Bool) (ws : List WordOut) (now : Block) (s : State) : State :=
  let hit (h : EaHold) : Bool := !h.arrived && h.queue == q
  match s.eaHold.find? hit with
  | none => s
  | some h =>
    let take (h : EaHold) : EaHold :=
      match h.block with
      | some _ => { h with arrived := true, block := some now }
      | none => { h with arrived := true, index := ((ws[1]?).map WordOut.data).getD 0, val := sint 64 (((ws[2]?).map WordOut.data).getD 0)
                         exp := sint 8 (((ws[3]?).map WordOut.data).getD 0) }
    let t := { s with eaHold := changeFirst hit (fun h => if bad then none else some (take h)) s.eaHold }
    if bad then
      (if q < 0xA0 then settleLinks (farDiscard h.stream h.by_ t) else settleLinks (opDone h.by_ 1 (flagPoison h.stream t)))
    else settleLinks t

/-- Table 13.5 and the consumer's use of a good entry. -/
def consume (q slot : Nat) (bad : Bool) (ws : List WordOut) (was now : Block) (s : State) : State :=
  if q < 0x20 then takeResponse q bad was now s
  else if q < 0x40 then writeEntry (q - 0x20) bad now s
  else if q < 0x60 then deliverEntry (q - 0x40) slot bad now s
  else if q < 0x80 then sendEntry (q - 0x60) slot bad now s
  else orderEntry q bad ws now s

/-- R268: the containers in port p's local input queue, whichever cluster packed them. -/
def localQueue (s : State) (p : Nat) : Nat := nsum ((List.range (nClusters s.hw)).map (fun c => (linkItems s c p).length))

/-- R268: the port that a packed container of cluster c is for: its local input queue holds 64. -/
def localRoom (s : State) (c id : Nat) : Bool :=
  match (getCl s c).packQueue.find? (fun i => !i.toMem && i.id == id) with
  | some ⟨_, _, _, .link p, _, _, _, _, _, _⟩ => decide (localQueue s p < 64)
  | _ => true

/-- R284: the consumer can take the entry: its own queue or hold has room. -/
def consumerTakes (s : State) (q slot : Nat) : Bool :=
  if 0x60 ≤ q && q < 0x80 then localRoom s (q - 0x60) slot else if 0x80 ≤ q && q < 0xB0 then eaRoom s else true

/-- R22: a fabric fill and this link delivery meet at the write port of the pad buffer in one cycle, a tick of the model (log 179). -/
def padCollision (s : State) (q slot : Nat) : Bool :=
  0x40 ≤ q && q < 0x60 && decide (slot < 16384) && (getCl s (q - 0x40)).fillTick == some s.clock.tick

/-- R22, R30: the link delivery waits in its queue; its lateness is a plan overrun of the sequencer that waits. -/
def delayPad (c : Nat) (s : State) : State :=
  match (getCl s c).toPad with
  | [] => s
  | x :: _ => raiseOverrun x.by_.q (seqSource x.by_.q) 0x21 s

/-- A read of a queue whose entries the state holds. An empty queue gives the idle word in every position, which the consumer tells by
its KIND (R330); a good packet is used, a bad one is discarded (R333). -/
def readHeld (q : Nat) (flips : List (BitVec 72)) (s : State) : State :=
  let v := getQueue s q
  match v.entries with
  | [] => s
  | e :: _ =>
    let slot := nth 0 v.slots 0
    if !consumerTakes s q slot then s
    else if padCollision s q slot then delayPad (q - 0x40) s
    else
      let was := wordsBlock ((e.drop 1).map (fun w => fld w.toNat 0 64))
      let ws := readEntry e flips
      let bad := entryBad q slot ws
      consume q slot bad ws was (entryBlock ws) (countRead q v.head ws bad (popEntry q s))

/-- The sequencers of an island (Table 13.1). -/
def islandSeqs (i : Nat) : List Nat :=
  if i < 16 then [2 * i, 2 * i + 1] else if 24 ≤ i && i < 32 then [32 + 2 * (i - 24), 33 + 2 * (i - 24)] else if i == 36 then [48] else []

/-- A frame that leaves by the management port. -/
def isCanOut : Out → Bool
  | .can _ _ _ => true
  | _ => false

/-- Table 13.5 for a bad packet of the queues 0x0B0 and up: of a dictionary request the request that the path carries next is refused; a
lost dictionary reply (`reply`) is read again, which changes nothing, and a fault record that is lost leaves one that names the queue (log 156);
a frame on its way out, or the oldest request that the port buffers (R412), is dropped; after a plan master command, in either direction, the
sequencers' slots report OVERRUN. -/
def badPacket (q row : Nat) (reply : Bool) (x : WordOut) (s : State) : State :=
  if q < 0xD8 then { s with dict := { s.dict with packetBad := true } }
  else if q < 0x100 then (if reply || x.isBad then s else raiseRow (0x700 + q) 0 row .contained s)
  else if q == 0x100 then { s with out := s.out.eraseP isCanOut }
  else if q == 0x101 then { s with dict := { s.dict with canBuf := s.dict.canBuf.drop 1 } }
  else if 0x104 ≤ q then forEach (islandSeqs (commandIsland ((q - 0x104) % 24))) markOverrun s
  else s

/-- R308, R329: the words of the twin queues carry no packet header. -/
def wordHeaderBad (q d : Nat) : Bool := if 0x102 ≤ q && q < 0x104 then false else headerBad q 16384 d

/-- One word of a queue whose words come with the read (log 6), as received. The first word of a packet is its header (R329, R333); a word of
a packet being discarded is counted in QUE and raises no fault (R337). -/
def takeWord (q : Nat) (w : BitVec 72) (s : State) : State :=
  let v := getQueue s q
  let x := readWord w
  if 0 < v.discard then bumpIf x.isBad (qObj 0x2044 q) 1 (setQueue q { v with discard := v.discard - 1, head := nextRow q v.head } s)
  else
    let reply := if v.read == 0 then fld x.data 56 8 == replyKind else v.reply
    let bad := x.isBad || (v.read == 0 && wordHeaderBad q x.data)
    let k := v.read + 1
    let n := packetWords q
    let s := countRead q v.head [x] bad (setQueue q { v with
      read := if bad then 0 else k % n, discard := if bad then n - k else 0, head := nextRow q v.head, reply := reply } s)
    if bad then badPacket q v.head reply x s else s

/-- A read of such a queue. With no readable entry the consumer gets the idle word at a packet boundary, told by its KIND, and waits inside
a packet (R330) or a DISCARD (R337). -/
def readWordOf (q : Nat) (word : Option (BitVec 72)) (s : State) : State :=
  match word with
  | none => s
  | some w => takeWord q w s

/-- QUEUE_READ (R332, R333): for a queue whose entries the state holds `flips` is the error pattern of each word of the entry; for the
others `word` is the word received, none where no entry is readable (R330). -/
def execQueueRead (queue : BitVec 9) (flips : List (BitVec 72)) (word : Option (BitVec 72)) (s : State) : Host.Outcome State Fault Refusal :=
  guarded (queueExists s.hw queue.toNat) s fun s => whenS (!s.faults.fatal) s fun s =>
    let q := queue.toNat
    if 0xB0 ≤ q then readWordOf q word s else readHeld q flips s

/-! ## Islands -/

/-- SUPPLY_DROOP (R321): the droop detector's level, and the stretched cycles it counted. The management island never stretches. -/
def execSupplyDroop (island : BitVec 6) (below : Bool) (stretched : BitVec 32) (s : State) : Host.Outcome State Fault Refusal :=
  guarded (islandExists s.hw island.toNat) s fun s =>
    whenS (island != 33) s fun s =>
      bump (key 0x2021 (island.toNat + 1)) stretched.toNat
        (setIsland island.toNat { getIsland s island.toNat with drooping := below, stretched := below || (getIsland s island.toNat).stretched } s)

/-- R324: a breach is raised against the sequencers of the island, or against its clock generator. -/
def breachReports (i : Nat) (s : State) : State :=
  match (islandSeqs i).filter (seqExists s.hw) with
  | [] => raiseOverrun 63 (0xA00 + i) 0xFF s
  | l => forEach l (fun q s => raiseOverrun q (seqSource q) (opNow s q) s) s

/-- BREACH_WINDOW_END (R323): a window with a breach cycle ends, with the tick that follows (log 142); `mhz` is its average clock. -/
def execBreachWindowEnd (island : BitVec 6) (mhz : BitVec 16) (s : State) : Host.Outcome State Fault Refusal :=
  guarded (islandExists s.hw island.toNat) s fun s =>
    whenS (island != 33) s fun s =>
      let i := island.toNat
      breachReports i (bump (key 0x2022 (i + 1)) 1 (lowerMhz i mhz.toNat (setIsland i { getIsland s i with breached := true } s)))

end Sys2Proof.Machine
end

