-- ==== Sys2Proof/Machine/HistoryLog.lean ====
section
/-! DEFINITION. The fault record (Table 15.4), the history (R383 to R385), the measurement registers and log (R399, R400), and
what the twin port sends (R307, R308). -/

namespace Sys2Proof.Machine

/-! ## Records (Table 15.4) -/

def classCode : FaultClass → Nat
  | .corrected => 1
  | .contained => 2
  | .fatal => 3

/-- Table 15.4. -/
def recordOf (d : Detection) (time frame cls : Nat) (esc forced : Bool) : Nat :=
  put time 192 64 + put d.addr.toNat 144 48 + put d.temp.toNat 128 16 + put d.volt.toNat 112 16 + put d.source.toNat 100 12
  + put cls 98 2 + put (b2n esc) 97 1 + put (b2n forced) 96 1 + put d.op.toNat 88 8 + put d.access.toNat 84 4
  + put d.akind.toNat 82 2 + put d.stream.toNat 72 10 + put d.tenant.toNat 64 8 + put d.syndrome.toNat 48 16 + put frame 24 24
  + put d.detail.toNat 0 24

def rcTime (r : Nat) : Nat := fld r 192 64
def rcSource (r : Nat) : Nat := fld r 100 12
def rcForced (r : Nat) : Bool := bitAt r 96
def rcAccess (r : Nat) : Nat := fld r 84 4
def rcSyndrome (r : Nat) : Nat := fld r 48 16
def rcDetail (r : Nat) : Nat := fld r 0 24

/-- A record of an event that is no fault: CLASS, ESC and FORCED zero, OP none (R383). -/
def eventRecord (s : State) (source syndrome detail : Nat) : Nat :=
  recordOf { source := BitVec.ofNat 12 source, cls := .corrected, access := 0, syndrome := BitVec.ofNat 16 syndrome
             detail := BitVec.ofNat 24 detail, op := 0 } s.clock.time s.plan.frame 0 false false

/-! ## What the twin port sends -/

/-- The twin port may drive a word: not in the fatal state or while a quiesce holds its VALID low (R443), or the controller is being
restarted (R393). -/
def twinDrives (s : State) : Bool :=
  !s.faults.fatal && (match s.boot.phase with
  | .quiesced => false
  | .attempt => false
  | .bootHold => false
  | _ => true)

/-- R307, R311, R313: mirror traffic flows while the twins are paired and no silence is declared. -/
def twinFlows (s : State) : Bool :=
  (s.twin.role == .pairedAuth || s.twin.role == .pairedFollower) && !s.twin.silent && twinDrives s

/-- R315: so does it from an authority that sends a full mirror. -/
def mirrorFlows (s : State) : Bool := twinFlows s || (s.twin.mirroring && !s.twin.silent && twinDrives s)

/-- An item of Table 12.1, in a twin word with its check byte (R439); its data layout is a free value (log 14). -/
def sendTwin (m : TwinMsg) (s : State) : State :=
  emit (.twinItem m (protect (Config.twinWord s.freeIdx).toNat)) { s with freeIdx := s.freeIdx + 1 }

/-- ROLE (Table 12.3). -/
def roleCode : Role → Nat
  | .pairedAuth => 0
  | .pairedFollower => 1
  | .splitAuth => 2
  | .splitFollower => 3
  | .sole => 4
  | .joining => 5

/-- Table 12.2, with its check byte (R308, R331). -/
def croakWord (s : State) (fatal : Bool) : BitVec 72 :=
  protect (put 0xC5 56 8 + put s.twin.croakSeq.toNat 40 16 + put (epochOf s) 28 12 + put (obj s (key 0xB000 5)) 16 12
    + put (roleCode s.twin.role) 12 4 + put (b2n s.boot.twinIdx) 11 1 + put (b2n fatal) 10 1 + put (b2n (contPending s)) 9 1
    + put (b2n (corrPending s)) 8 1)

/-- One croak leaves: the word carries SEQ, which then advances. -/
def sendCroak (fatal : Bool) (s : State) : State :=
  emit (.twin (croakWord s fatal)) { s with twin := { s.twin with croakSeq := s.twin.croakSeq + 1 } }

/-! ## The history (R383, R384) -/

/-- Table 16.5 with its CRC. -/
def histEntryWord (e : HistEntry) : Nat :=
  let v := put e.seq.toNat 320 32 + put e.kind.toNat 312 8 + put (b2n e.twin) 288 1 + put e.ref.toNat 256 32 + e.record.toNat
  put (crc32c (toBytes 44 v)) 352 32 + v

/-- Entries that 4 MiB hold at 48 bytes each (Table 17.1). -/
def histMax : Nat := 4194304 / 48

/-- Thirty days in ns. -/
def thirtyDays : Nat := 2592000000000000

/-- R384: the entry is voided. -/
def voided (l : List HistEntry) (e : HistEntry) : Bool := l.any (fun v => v.kind == 8 && v.ref == e.seq)

/-- An entry that counts towards watch and permanence. -/
def counts (l : List HistEntry) (e : HistEntry) : Bool :=
  (e.kind == 1 || e.kind == 5) && !rcForced e.record.toNat && !voided l e

/-- R383: an entry that may be discarded when the history is full. -/
def discardable (l : List HistEntry) (e : HistEntry) : Bool := e.kind != 9 && !l.any (fun p => p.kind == 9 && p.ref == e.seq)

/-- Remove the first element that satisfies p. -/
def dropFirst {α : Type} (p : α → Bool) : List α → List α
  | [] => []
  | a :: r => if p a then r else a :: dropFirst p r

/-- R383: a full history loses its oldest discardable entry before an append; `keep` is an entry that the append names. -/
def histRoom (keep : Option (BitVec 32)) (s : State) : State :=
  let l := s.hist.own
  if histMax ≤ l.length then
    bump (key 0x9000 7) 1 { s with hist := { s.hist with own := dropFirst (fun e => discardable l e && keep != some e.seq) l } }
  else s

/-- R251, R255, R383: the housekeeping controller writes an entry into the history mirror, where a valid privileged region holds its
address; the access passes the checks of Table 10.3 (log 146). Nothing leaves after a quiesce or in the fatal state (R369, R443). -/
def mirrorEntry (e : HistEntry) (s : State) : State :=
  let a := (Config.mirrorAddr e.seq.toNat).toNat
  match privRegionOf s a with
  | none => s
  | some _ =>
    if !twinDrives s || s.faults.fatal then s
    else match privAccess s a false with
    | .ok _ w => emit (.histMirror (BitVec.ofNat 64 (w.toNat / 256 * 256)) (a % 256) (BitVec.ofNat 384 (histEntryWord e))) s
    | v => privRefused 0x903 a v s

/-- One entry joins the history, the mirror in memory and the twin's copy. -/
def appendEntry (kind ref rec_ : Nat) (s : State) : State :=
  let h := s.hist
  let e : HistEntry :=
    { seq := BitVec.ofNat 32 h.nextSeq, kind := BitVec.ofNat 8 kind, twin := s.boot.twinIdx, ref := BitVec.ofNat 32 ref
      record := BitVec.ofNat 256 rec_ }
  let s := mirrorEntry e { s with hist := { h with own := h.own ++ [e], nextSeq := h.nextSeq + 1 } }
  if twinFlows s then sendTwin (.history e) { s with hist := { s.hist with unsent := s.hist.nextSeq } } else s

/-- One entry is appended. -/
def histEntry (kind ref rec_ : Nat) (s : State) : State := appendEntry kind ref rec_ (histRoom none s)

/-- R384: the earlier entry with which record r forms a permanent pair. -/
def pairOf (l : List HistEntry) (r : Nat) : Option HistEntry :=
  if rcForced r || rcSyndrome r == 0 then none
  else l.find? (fun e => counts l e && rcSource e.record.toNat == rcSource r && rcSyndrome e.record.toNat == rcSyndrome r
    && decide (rcTime r - rcTime e.record.toNat < thirtyDays) && decide (rcTime e.record.toNat - rcTime r < thirtyDays))

/-- R383, R384: a fault or failing verdict is appended, and the permanent pair it forms with an entry still held. -/
def histFault (kind r : Nat) (s : State) : State :=
  let s := histRoom none s
  let p := pairOf s.hist.own r
  let s := appendEntry kind 0 r s
  match p with
  | some e => appendEntry 9 e.seq.toNat (setFld r 96 4 0) (histRoom (some e.seq) s)
  | none => s

/-- The cluster that a source is a unit of (Table 15.1). -/
def sourceCluster (k : Nat) : Option Nat :=
  match k / 256 with
  | 0 | 1 | 2 => some (k / 17)
  | 3 => some (k % 256)
  | 4 => some (k % 256 / 8)
  | 5 => some (k % 256 / 2)
  | _ => none

/-- The source lies in a cluster whose fence stands. -/
def inFencedCluster (s : State) (src : Nat) : Bool :=
  match sourceCluster src with
  | some c => (getCl s c).fenced && !(getCl s c).fenceKept
  | none => false

/-- R380: the source is in watch. What WATCH_SET named in a cluster fenced then takes effect when the fence is lifted (R388). -/
def inWatch (s : State) (src : Nat) : Bool :=
  (s.tests.watchSet.contains src && !s.tests.watchWait.contains src)
  || s.hist.own.any (fun e => counts s.hist.own e && rcSource e.record.toNat == src
      && decide (s.clock.time - rcTime e.record.toNat < thirtyDays))

/-- R380: watch is evaluated for every source. -/
def evalWatch (s : State) : State :=
  forEach (allSources s.hw) (fun k s =>
    let w := inWatch s k
    if (getSrc s k).watch == w then s else setSrc k { getSrc s k with watch := w } s)
    { s with tests := { s.tests with watchWait := s.tests.watchWait.filter (inFencedCluster s) } }

/-- WATCH_COUNT. -/
def watchCount (s : State) : Nat := (s.faults.src.filter (fun e => e.2.watch)).length

/-- R384: the sources that have a permanent entry, with the record it holds. -/
def permanents (s : State) : List Nat := (s.hist.own.filter (fun e => e.kind == 9)).map (fun e => e.record.toNat)

/-! ## Measurement (R399, R400) -/

/-- FLASH_OK. -/
def flashOk (s : State) : Bool := obj s (key 0xC000 10) == 1

/-- Entries of the flash's measurement ring (Table 17.1). -/
def ringSize : Nat := 16384

/-- R400: a log entry is written to the flash ring, at the place after the last one (log 152). -/
def ringEntry (e : BitVec 512) (s : State) : State :=
  if flashOk s then
    let f := s.boot.flash
    emit (.flash (0x810000 + 64 * (f.ringNext % ringSize)) 64) { s with
      boot := { s.boot with flash := { f with ring := (f.ring ++ [e]).drop (f.ring.length + 1 - ringSize), ringNext := f.ringNext + 1 } } }
  else s

/-- Extend a register with an item digest and log it (R399, R400). -/
def extendMeas (reg event item : Nat) (d : BitVec 384) (s : State) : State :=
  let k := key 0x1100 (reg + 1)
  let e := put item 480 32 + put event 472 8 + put reg 464 8 + put s.boot.ident.bootCount.toNat 448 16 + put s.boot.log.length 416 32
    + d.toNat
  setObj k (digestNum (sha384 (toBytes 48 (obj s k) ++ toBytes 48 d.toNat))).toNat
    (ringEntry (BitVec.ofNat 512 e) { s with boot := { s.boot with log := s.boot.log ++ [BitVec.ofNat 512 e] } })

/-- R399: the start record's extension of register 4; `kind` 1 cold, 2 warm. -/
def extendStart (kind : Nat) (s : State) : State :=
  let r := toBytes 8 s.clock.time ++ [kind, b2n s.boot.twinIdx] ++ toBytes 2 (instanceId s) ++ [0, 0, 0, 0]
  extendMeas 4 (4 + kind) 0 (digestNum (sha384 r)) s

/-- R399, R417: an accepted presence-qualified write. -/
def extendPresence (k v : Nat) (s : State) : State :=
  let r := toBytes 2 (k / 256) ++ [k % 256, 0] ++ toBytes 8 v ++ [0, 0, 0, 0]
  extendMeas 5 7 k (digestNum (sha384 r)) (bump (key 0x1200 4) 1 s)

end Sys2Proof.Machine
end

