-- ==== Sys2Proof/Machine/Faults.lean ====
section
/-! DEFINITION. The fault collector (15): escalation, records, fences, failing rows, the fatal state, acknowledgement and forcing;
residue checks (R375) and the lane remap (R128). -/

namespace Sys2Proof.Machine

/-! ## Units of a source (Table 15.1) -/

/-- A spawn lane: its cluster and lane. -/
def laneOf (k : Nat) : Option (Nat × Nat) := if k < 0x220 then some (k / 17, k % 17) else none

/-- A pad buffer or a pack unit with its scale file: the cluster, and whether it is the pad buffer. -/
def rowUnit (k : Nat) : Option (Nat × Bool) :=
  if k / 256 == 3 then some (k % 256, false) else if k / 256 == 4 && k % 8 == 0 then some (k % 256 / 8, true) else none

/-- Table 15.7: what fencing a source reaches. -/
inductive Reach where
  | lane (c l : Nat) | flick (c : Nat) | cluster (c : Nat) | port (p : Nat) | never
  deriving DecidableEq, Repr

/-- Table 15.7. -/
def reachOf (k : Nat) : Reach :=
  match k / 256 with
  | 0 | 1 | 2 => .lane (k / 17) (k % 17)
  | 3 => .cluster (k % 256)
  | 4 => if k % 8 == 3 then .flick (k % 256 / 8) else .cluster (k % 256 / 8)
  | 5 => .cluster (k % 256 / 2)
  | 6 => .port (k % 256 / 4)
  | _ => .never

/-- Table 15.3, last column. -/
def accessFences (a : Nat) : Bool := a == 0 || a == 2 || a == 3 || a == 0xB

/-! ## Fences (R362, Table 15.7) -/

/-- The active map uses the cluster and a plan is running or paused. -/
def clusterUsed (s : State) (c : Nat) : Bool :=
  (s.plan.mode == .running || s.plan.mode == .paused) && s.plan.map.contains c

/-- A cluster is fenced: its held tiles are poisoned, a remap in progress is abandoned (R371), the plan pauses (R244). -/
def fenceCluster (c : Nat) (s : State) : State :=
  let s := modCl c (fun cl => { cl with
    fenced := true, fenceKept := false, remapLane := none, tiles := cl.tiles.map (fun e => (e.1, e.2.hurt)) }) s
  if clusterUsed s c then { s with plan := { s.plan with fencePause := true } } else s

/-- R242: NO_STRETCH of the logical cluster that runs on c. -/
def noStretch (s : State) (c : Nat) : Bool :=
  match logicalOf s c with | some l => bitAt (obj s (key 0x2400 11)) l | none => false

/-- A lane is fenced (R128, R129, R131, R242). -/
def fenceLane (c l : Nat) (s : State) : State :=
  let cl := getCl s c
  let m := if bitAt cl.lanesFenced l then cl.lanesFenced else cl.lanesFenced + 2 ^ l
  let n := popcount 17 m
  let s := poisonLane c l (setCl c { cl with lanesFenced := m, remapLane := some l } s)
  if 3 ≤ n || (n == 2 && noStretch s c) then fenceCluster c s else s

/-- A link port is fenced: DOWN by R290, and there it stays. -/
def fencePort (p : Nat) (s : State) : State := loseLink p (modPort p (fun q => { q with fenced := true }) s)

/-- The effect of Table 15.7, and the source's FENCED bit. -/
def fenceSource (k : Nat) (s : State) : State :=
  let mark (s : State) : State := setSrc k { getSrc s k with fenced := true } s
  match reachOf k with
  | .lane c l => mark (fenceLane c l s)
  | .flick c => mark (modCl c (fun cl => { cl with flickFenced := true }) s)
  | .cluster c => mark (fenceCluster c s)
  | .port p => mark (fencePort p s)
  | .never => s

/-! ## Failing rows (R366 to R368) -/

def setRepair (src bank : Nat) (r : BankRepair) (s : State) : State :=
  { s with faults := { s.faults with repairs := tset { rows := [], sparesUsed := 0 } s.faults.repairs (src * 64 + bank) r } }

/-- Table 15.8: spares per bank of a source's array. -/
def sparesOf (src : Nat) : Nat := match rowUnit src with | some _ => 4 | none => 2

/-- R368: the plan names a slot of the bank in the cluster. -/
def planNamesBank (s : State) (c bank : Nat) : Bool :=
  match s.plan.active with
  | none => false
  | some im =>
    (forWords im (fun q _ i => (slotRuns im q i).any (fun r =>
      physicalOf s r.1 == c && (List.range (min r.2.2 64)).any (fun k => runSlot r.2.1 k % 64 == bank)))).isSome

/-- Table 15.8: the unit at the cluster end or link port end of a queue; none for queues of instance units. -/
def queueUnit (q : Nat) : Option Nat :=
  if q < 0x20 then some (srcPad q) else if q < 0x40 then some (srcPack (q - 0x20)) else if q < 0x60 then some (srcPad (q - 0x40))
  else if q < 0x80 then some (srcPack (q - 0x60)) else if q < 0xA0 then some (srcMerge (q - 0x80))
  else if q < 0xB0 then some (srcCh (q - 0xA0)) else none

/-- R363: the fence of a unit, unless it stands, or is derived from the history at a start and the unit is KEPT. -/
def fenceLost (atStart : Bool) (k : Nat) (s : State) : State :=
  if (getSrc s k).fenced || (atStart && (getSrc s k).kept) then s else fenceSource k s

/-- R368, Table 15.8: what losing a bank by a row means; `atStart` when a start derives it from the history (R363). -/
def bankLost (atStart : Bool) (src bank row : Nat) (s : State) : State :=
  match rowUnit src with
  | some (c, true) =>
    let s := modCl c (fun cl => { cl with padBanksFenced := if bitAt cl.padBanksFenced bank then cl.padBanksFenced else cl.padBanksFenced + 2 ^ bank }) s
    if clusterUsed s c && planNamesBank s c bank then fenceLost atStart src s else s
  | some (_, false) => fenceLost atStart src s
  | none =>
    match laneOf src with
    | some _ => fenceLost atStart src s
    | none =>
      match queueUnit (src - 0x700) with
      | some u => fenceLost atStart u s
      | none => raiseRow src bank row .fatal s

/-- R368: a bank is fenced; the history records it. -/
def fenceBank (src bank row : Nat) (s : State) : State :=
  let d := rowDetail s src bank row
  bankLost false src bank row (histEntry 4 0 (eventRecord s src d.1 d.2) s)

/-- R367: what a remapped row held is discarded. -/
def discardRow (src bank row : Nat) (s : State) : State :=
  match rowUnit src with
  | some (c, true) => padTag c (row % 256 * 64 + bank) s
  | some (c, false) =>
    modCl c (fun cl => { cl with scale := (List.range 8).foldl (fun t i => tset .cleared t ((row % 256 * 8 + i) % 2048) .cleared) cl.scale }) s
  | none => s

/-- R367, R368: one failing row is remapped onto a free spare, or its bank is fenced. -/
def remapRow (f : FailingRow) (s : State) : State :=
  let r := repairOf s f.source f.bank
  let n := tget 0 r.rows f.row
  let d := rowDetail s f.source f.bank f.row
  let s := if n == 0 then s
    else bump (key 0x7000 8) 1 (histEntry 3 0 (eventRecord s f.source d.1 d.2) s)
  if 2 ≤ n || sparesOf f.source ≤ r.sparesUsed then fenceBank f.source f.bank f.row s
  else
    let s := setRepair f.source f.bank { rows := tset 0 r.rows f.row (n + 1), sparesUsed := r.sparesUsed + 1 } s
    let d := rowDetail s f.source f.bank f.row
    discardRow f.source f.bank f.row (bump (key 0x7000 7) 1 (histEntry 2 0 (eventRecord s f.source d.1 d.2) s))

/-- The failing rows that are repaired now: at a frame start all but queue rows, at a start all (R367). -/
def remapRows (atStart : Bool) (s : State) : State :=
  let now (f : FailingRow) : Bool := atStart || f.source < 0x700
  let l := s.faults.failing.filter now
  forEach l remapRow { s with faults := { s.faults with failing := s.faults.failing.filter (fun f => !now f) } }

/-! ## The fatal state (R369) and what a quiesce shares with it (R394) -/

/-- Step 4: an UP port sends one verdict-only frame retracting what is open, then signals link down; one in RESYNC or HELD only signals. -/
def closePort (p : Nat) (s : State) : State :=
  let q := getPort s p
  if q.st == 0 then s
  else if q.st != 2 then emit (.linkSignalDown p) (dropLink p s)
  else
    let bad := q.window.map (fun i => decide (verdictOf s i.verdict i.makers i.ranges ≠ .confirmed))
    let tr := trailerWordOf (oldestOpen q) q.window.length (maskOf 64 (fun i => nth false bad i))
    let s := bump (lk p 13) (bad.filter id).length s
    emit (.linkSignalDown p) (dropLink p (sendFrame p { typ := 1, fseq := q.txF, cseq := q.txC } [] tr s))

/-- Steps 3 and 4: holds are discarded unwritten, the ports go down, no further request is issued. -/
def quiesceUnits (s : State) : State :=
  let s := forEach (List.range (nPorts s.hw)) (fun p s => closePort p (modPort p (fun q => { q with hold := [], chOut := [] }) s)) s
  let s := forEach (List.range (nClusters s.hw)) (fun c s => modCl c (fun cl => { cl with packQueue := [], toWrite := [], readWait := [] }) s) s
  { s with eaHold := [] }

/-- Table 15.10. -/
def enterFatal (s : State) : State :=
  quiesceUnits (sendCroak true { s with faults := { s.faults with fatal := true } })

/-! ## Collection (R357, R358) -/

/-- Table 15.5. -/
def escalate (v : SrcState) (c : FaultClass) : FaultClass × Bool :=
  match c with
  | .corrected => if !v.corr then (.corrected, false) else if !v.cont then (.contained, true) else (.fatal, true)
  | .contained => if !v.cont then (.contained, false) else (.fatal, true)
  | .fatal => (.fatal, false)

/-- R362: a contained fault that names a row of a pad buffer or of a scale file. -/
def namesRow (r : Report) : Bool :=
  (rowUnit r.d.source.toNat).isSome && !r.forced && ((r.d.access == 3 && !r.test) || r.rowTest.isSome)

/-- The bank and logical row that a report names: SYNDROME for storage (R355); of a row test the DETAIL gives the physical row (Table 15.4),
which on a spare is another than the logical one. -/
def rowNamed (r : Report) : Nat × Nat :=
  match r.rowTest with
  | some b => b
  | none => (fld r.d.syndrome.toNat 8 8, fld r.d.syndrome.toNat 0 8)

/-- Table 15.6, contained. A row of an associative memory or a queue is failing when it yields an uncorrectable word (R367), which a
corrected word that only escalated is not. -/
def containedReaction (r : Report) (s : State) : State :=
  let k := r.d.source.toNat
  let b := rowNamed r
  if namesRow r then addFailing k b.1 b.2 s
  else
    let word := r.d.access == 3 && !r.forced && r.d.cls == .contained
    let s := if word && ((laneOf k).isSome || (0x700 ≤ k && k < 0x900)) then addFailing k b.1 b.2 s else s
    if accessFences r.d.access.toNat then fenceSource k s else s

/-- The first-error record of a class. -/
def ferOf : FaultClass → Nat
  | .corrected => ferCorr
  | .contained => ferCont
  | .fatal => ferFatal

/-- Steps 2 to 4 of R357 in the source's state. -/
def sourceAfter (v : SrcState) (cls : FaultClass) (r : Report) : SrcState :=
  let v := { v with count := min (v.count + 1) 65535 }
  match cls with
  | .corrected => { v with corr := true, corrAccess := r.d.access.toNat }
  | .contained => { v with cont := true, kept := false, contAccess := r.d.access.toNat, contRow := namesRow r }
  | .fatal => v

/-- R357, R371: one report is processed. -/
def processReport (r : Report) (s : State) : State :=
  let k := r.d.source.toNat
  let v := getSrc s k
  if s.faults.fatal || v.fenced then bump (key 0x7000 6) 1 s
  else
    let e := escalate v r.d.cls
    let rec_ := recordOf r.d r.time r.frame (classCode e.1) e.2 r.forced
    let stored := obj s (ferOf e.1) == 0
    let s := if stored then setObj (ferOf e.1) rec_ s else s
    let s := match e.1 with
      | .corrected => bump (key 0x7000 2) 1 s
      | .contained => bump (key 0x7000 3) 1 s
      | .fatal => s
    let s := bumpIf e.2 (key 0x7000 4) 1 (setSrc k (sourceAfter v e.1 r) s)
    let s := match e.1 with
      | .corrected => s
      | .contained => containedReaction r s
      | .fatal => enterFatal s
    let s := if stored || e.2 then notify 1 0x7000 1 s else s
    if r.test then s else histFault 1 rec_ s

/-- R365: what voting found while the report was processed. -/
def votes (v : Vote) (s : State) : State :=
  match v with
  | .agree => s
  | .oneDiffers => raiseSimple 0x907 .corrected 0xA (bump (key 0x7000 5) 1 s)
  | .noMajority =>
    let s := raiseSimple 0x907 .fatal 0xA s
    match s.faults.reports.getLast? with
    | some r => processReport r { s with faults := { s.faults with reports := s.faults.reports.dropLast } }
    | none => s

/-! ## Acknowledgements (R356, R359, R360) -/

/-- R359: ACK_SOURCE. -/
def ackSource (v : Nat) (s : State) : State :=
  let k := fld v 0 12
  let x := getSrc s k
  setSrc k { x with corr := x.corr && !bitAt v 12, cont := x.cont && !bitAt v 13 } s

/-- R359: ACK_ALL. -/
def ackAll (v : Nat) (s : State) : State :=
  forEach (s.faults.src.map (·.1)) (fun k s =>
    let x := getSrc s k
    setSrc k { x with corr := x.corr && !bitAt v 0, cont := x.cont && !bitAt v 1 } s) s

/-- R359: ACK_RECORD. -/
def ackRecord (v : Nat) (s : State) : State :=
  let s := if bitAt v 0 then setObj ferCorr 0 s else s
  if bitAt v 1 then setObj ferCont 0 s else s

/-- R360: an acknowledgement by policy, of an access type that AUTO_ACK_CORR or AUTO_ACK_CONT selects, or of a row (R362). -/
def ackPolicy (k : Nat) (cls : FaultClass) (s : State) : State :=
  let v := getSrc s k
  match cls with
  | .corrected => whenS (v.corr && bitAt (obj s (key 0x7200 4)) v.corrAccess) s (setSrc k { v with corr := false })
  | .contained => whenS (v.cont && (v.contRow || bitAt (obj s (key 0x7200 5)) v.contAccess)) s (setSrc k { v with cont := false })
  | .fatal => s

/-- The collector handles one acknowledgement. -/
def handleAck (a : Ack) (s : State) : State :=
  match a with
  | .source v => ackSource v s
  | .all v => ackAll v s
  | .record v => ackRecord v s
  | .policy k cls => ackPolicy k cls s

/-- R356: an acknowledgement is handled after the reports that arrived before it. -/
def acknowledge (a : Ack) (s : State) : State :=
  match s.faults.reports with
  | [] => handleAck a s
  | l => { s with faults := { s.faults with acks := s.faults.acks ++ [{ ahead := l.length, ack := a }] } }

/-- One report has been processed: the acknowledgements that arrived right after it are handled. -/
def settleAcks (s : State) : State :=
  let l := s.faults.acks.map (fun a => { a with ahead := a.ahead - 1 })
  forEach (l.filter (fun a => a.ahead == 0)) (fun a s => handleAck a.ack s)
    { s with faults := { s.faults with acks := l.filter (fun a => a.ahead != 0) } }

/-- R356: the head of the reporting queues is processed. -/
def processHead (s : State) : State :=
  match s.faults.reports with
  | [] => s
  | r :: rest => settleAcks (processReport r { s with faults := { s.faults with reports := rest } })

/-! ## FAULT_REPORT -/

/-- R106: an uncorrectable word of a scale file clears its entry and history. What the entry gathered in the step in progress goes with
them: the spec names the entry and its history only (log 147). The row is failing (R367). -/
def clearScaleWord (d : Option Detection) (e : Option (BitVec 11)) (s : State) : State :=
  match d, e with
  | some d, some e =>
    if d.source.toNat / 256 == 3 then
      addFailing d.source.toNat 0 (e.toNat / 8) (modCl (d.source.toNat % 256) (fun cl => { cl with scale := tset .cleared cl.scale e.toNat .cleared }) s)
    else s
  | _, _ => s

/-- R106: an uncorrectable scale word "is reported as a corrected fault of the scale file": of access type storage. -/
def scaleReport (d : Detection) (e : Option (BitVec 11)) : Detection :=
  if e.isSome && d.source.toNat / 256 == 3 then { d with cls := .corrected, access := 3 } else d

/-- R128, step 2: a lane that a contained fault will fence poisons its deliveries from the raise on. -/
def poisonRaised (d : Detection) (s : State) : State :=
  match laneOf d.source.toNat with
  | some (c, l) =>
    if d.cls == .contained && accessFences d.access.toNat && !(getSrc s d.source.toNat).fenced then poisonLane c l s else s
  | none => s

/-- What a detecting unit does at once (R356): a lane's deliveries carry poison (R128); an uncorrectable read of the history mirror adds a
retirement candidate, and the flash copy governs (R257, Table 10.4). -/
def detectNow (d : Detection) (s : State) : State :=
  if d.source == 0x903 && d.access == 6 && d.cls == .contained then addCandidate d.addr.toNat 4 s else poisonRaised d s

/-- R395: a fatal fault against the housekeeping controller or the dictionary path while an attempt runs: the attempt fails. -/
def failsAttempt (s : State) (d : Detection) : Bool :=
  s.boot.phase == .attempt && d.cls == .fatal && (d.source == 0x903 || d.source == 0x904)

/-- A detected fault: to the reporting queue, with what its unit does at once. -/
def detect (d : Detection) (s : State) : State :=
  if failsAttempt s d then { s with boot := { s.boot with attemptFault := true } } else raise d (detectNow d s)

/-- FAULT_REPORT (R357): a fault that the hardware detects now joins the reporting queue; the collector processes its head. With filtered
PWR_OK low no unit detects or processes anything (R441). -/
def execFaultReport (new : Option Detection) (scaleEntry : Option (BitVec 11)) (vote : Vote) (s : State) :
    Host.Outcome State Fault Refusal :=
  guarded (match new with | some d => srcExists s.hw d.source.toNat | none => true) s fun s =>
    whenS (powered s) s fun s =>
      let s := match new with | some d => detect (scaleReport d scaleEntry) s | none => s
      votes vote (processHead (clearScaleWord new scaleEntry s))

/-! ## Acknowledgement by policy (R360) -/

/-- POLICY_ACK: once the history holds the entry. -/
def execPolicyAck (source : BitVec 12) (cls : FaultClass) (s : State) : Host.Outcome State Fault Refusal :=
  guarded (srcExists s.hw source.toNat) s (acknowledge (.policy source.toNat cls))

/-! ## Writes of the collector's objects (R359, R363, R364, R380) -/

/-- R359: ACK_SOURCE. -/
def ackSourceW (v : Nat) (s : State) : State := acknowledge (.source v) s

/-- R359: ACK_ALL. -/
def ackAllW (v : Nat) (s : State) : State := acknowledge (.all v) s

/-- R359: ACK_RECORD. -/
def ackRecordW (v : Nat) (s : State) : State := acknowledge (.record v) s

/-- R364: a forced report joins the queue. -/
def forceW (k : Nat) (cls : FaultClass) (access : Nat) (s : State) : State :=
  let d : Detection := { source := BitVec.ofNat 12 k, cls := cls, access := BitVec.ofNat 4 access }
  let s := poisonRaised d s
  { s with
    faults := { s.faults with
      reports := s.faults.reports ++ [{ d := readSensors d s, forced := true, test := false, rowTest := none, time := s.clock.time, frame := s.plan.frame }] }
    freeIdx := s.freeIdx + 1 }

/-- R363: the cluster has no fenced unit and fewer than three fenced lanes left. -/
def clusterClear (s : State) (c : Nat) : Bool :=
  s.faults.src.all (fun e => !e.2.fenced || reachOf e.1 != .cluster c)
  && decide ((s.faults.src.filter (fun e => e.2.fenced && e.1 < 0x220 && e.1 / 17 == c)).length < 3)

/-- R363: a fence is lifted; what WATCH_SET named in a cluster whose fence it was takes effect (R388). -/
def keepW (k : Nat) (s : State) : State :=
  let s := histEntry 6 0 (eventRecord s k 0 0) (setSrc k { getSrc s k with fenced := false, kept := true } s)
  match reachOf k with
  | .lane c _ => if (getCl s c).fenced && clusterClear s c then evalWatch (modCl c (fun cl => { cl with fenceKept := true }) s) else s
  | .flick c => modCl c (fun cl => { cl with flickFenced := false }) s
  | .cluster c => if clusterClear s c then evalWatch (modCl c (fun cl => { cl with fenceKept := true }) s) else s
  | .port p =>
    if s.faults.src.any (fun e => e.2.fenced && reachOf e.1 == .port p) then s
    else startResync p (modPort p (fun q => { q with fenced := false }) s)
  | .never => s

/-- R380: WATCH_SET names a source, or a cluster's lanes and cluster units. -/
def watchSetW (v : Nat) (s : State) : State :=
  let l := if bitAt v 15 then
      (List.range 17).map (fun i => 17 * fld v 0 5 + i) ++ (List.range 7).map (fun u => 0x400 + 8 * fld v 0 5 + u)
    else [fld v 0 12]
  let new := l.filter (fun k => !s.tests.watchSet.contains k)
  evalWatch { s with tests := { s.tests with
    watchSet := s.tests.watchSet ++ new, watchWait := s.tests.watchWait ++ new.filter (inFencedCluster s) } }

/-! ## Lanes (R127 to R129) -/

/-- The map of a cluster's positions from its fenced lanes: the position the spare serves, and stretched mode. Where two lanes were lost
before one remap the spare serves the lowest-numbered: the spec names no order (log 148). A lane whose fault is not processed yet goes on
to carry poison. -/
def remapLanes (cl : Cluster) : Cluster :=
  let spareOk := !bitAt cl.lanesFenced 16
  let lost := positions 16 (bitAt cl.lanesFenced)
  { cl with
    spareFor := if !spareOk then none else match cl.spareFor with | some p => some p | none => lost.head?
    stretched := cl.stretched || decide (2 ≤ popcount 17 cl.lanesFenced)
    remapLane := none, poisonLanes := cl.poisonLanes.filter (fun l => !bitAt cl.lanesFenced l) }

/-- LANE_REMAP (R128): at the first new expansion at least 8 cycles after the fault. -/
def execLaneRemap (c : BitVec 5) (s : State) : Host.Outcome State Fault Refusal :=
  guarded (c.toNat < nClusters s.hw) s fun s =>
    whenS ((getCl s c.toNat).remapLane.isSome && !(getCl s c.toNat).fenced) s (modCl c.toNat remapLanes)

/-! ## Residue checks (R375) -/

/-- The units a site names exist. -/
def sitePresent (hw : Hw) : ResidueSite → Bool
  | .mergeTree c _ _ => c.toNat < nClusters hw
  | .lane c l _ _ => c.toNat < nClusters hw && l.toNat < 17
  | .flick c _ => c.toNat < nClusters hw
  | .pack c _ => c.toNat < nClusters hw
  | .chorus p _ => p.toNat < nPorts hw
  | .dictionary => true

/-- The report of a residue mismatch; `op` is the walk instruction in progress (R354). -/
def raiseResidue (q src op : Nat) (cls : FaultClass) (syn : BitVec 16) (detail : Nat) (s : State) : State :=
  raise { source := BitVec.ofNat 12 src, cls := cls, access := 2, syndrome := syn, detail := BitVec.ofNat 24 detail,
          op := BitVec.ofNat 8 op
          stream := BitVec.ofNat 10 (curStream s q), tenant := BitVec.ofNat 8 (curTenant s q) } s

/-- R128, R356: a lane's residue mismatch: from the next cycle its deliveries carry poison, until the remap. -/
def laneResidue (c l : Nat) (syn : BitVec 16) (detail : Nat) (s : State) : State :=
  let k := 17 * c + l
  raiseResidue c k (opOn s c .ln) .contained syn detail (if (getSrc s k).fenced then s else poisonLane c l s)

/-- RESIDUE_CHECK_FAIL (R375) with the reaction of the rule that names the check (R128, R184, R217, R280). -/
def execResidueCheckFail (site : ResidueSite) (syndrome : BitVec 16) (s : State) : Host.Outcome State Fault Refusal :=
  guarded (sitePresent s.hw site) s fun s =>
    match site with
    | .mergeTree c e x =>
      let s := raiseResidue c.toNat (srcMerge c.toNat) (opOn s c.toNat .ln) .contained syndrome x.toNat s
      match e with
      | none => s
      | some e => modCl c.toNat (fun cl => { cl with
          tiles := cl.tiles.map (fun t => if t.1 == e.toNat then (t.1, t.2.hurt) else t) }) s
    | .lane c l _ seqs =>
      laneResidue c.toNat l.toNat syndrome (match seqs with | x :: _ => x.toNat | [] => 0) s
    | .flick c p =>
      let s := raiseResidue c.toNat (srcFlick c.toNat) (opOn s c.toNat .ln) .corrected syndrome 0 s
      match pendingPass (getCl s c.toNat) p.toNat with
      | some (k, x) => modCl c.toNat (fun cl => { cl with flickPasses := tins cl.flickPasses k { x with residueFail := true } }) s
      | none => s
    | .pack c i => makerVerdict (.pack c i) false (raiseResidue c.toNat (srcPack c.toNat) (opOn s c.toNat .ln) .contained syndrome 0 s)
    | .chorus p i => makerVerdict (.chorus p i) false (raiseResidue (32 + p.toNat) (srcCh p.toNat) (opOn s (32 + p.toNat) .lk) .contained syndrome 0 s)
    | .dictionary => whenS (powered s) s fun s => { s with dict := { s.dict with residueBad := some syndrome } }

end Sys2Proof.Machine
end

