-- ==== Sys2Proof/Machine/Replies.lean ====
section
/-! DEFINITION. Replies of the dictionary's two paths (R410, R412, R415), shared writes whose reply waits (R306), flash jobs. -/

namespace Sys2Proof.Machine

/-! ## Error codes (Table 18.3) -/

def errAbsent : Nat := 0x01
def errAccess : Nat := 0x02
def errRange : Nat := 0x03
def errBusy : Nat := 0x04
def errPresence : Nat := 0x05
def errTwinSplit : Nat := 0x06
def errFatal : Nat := 0x07
def errLength : Nat := 0x08
def errMalformed : Nat := 0x0A
def errInternal : Nat := 0x0B

/-! ## The management port -/

/-- R312: NODE_ID with bit 0 inverted. -/
def twinNode (s : State) : BitVec 7 := s.boot.nodeId ^^^ 1

/-- R409: a frame leaves, unless the port is bus-off. -/
def sendCan (id : BitVec 29) (payload : List Byte) (s : State) : State :=
  if s.dict.busOff then s else emit (.can id (padPayload payload) (rateSwitch s)) s

/-- Byte k of a payload. -/
def payByte (l : List Byte) (k : Nat) : Nat := (nth 0 l k).toNat

/-- `n` bytes of a payload from byte `k`. -/
def payNum (l : List Byte) (k n : Nat) : Nat := ofBytes (((l.drop k).take n).map BitVec.toNat)

/-- R410: the object key a request names. -/
def reqKey (m : CanReq) : Nat := key (payNum m.payload 0 2) (payByte m.payload 2)

/-- R412: a reply leaves and is kept for its source node. -/
def sendReply (m : CanReq) (sv : Nat) (payload : List Byte) (s : State) : State :=
  let id := canId sv m.src (ownNode s) m.tag.toNat
  let s := sendCan id payload s
  let k : Kept := { tag := m.tag, payload := m.payload, reply := (id, payload) }
  { s with dict := { s.dict with kept := tins s.dict.kept m.src.toNat k } }

def objHead (k : Nat) : List Byte := bytesOf 2 (k / 256) ++ bytesOf 1 (k % 256)

/-- RN_ERRORS; at a split follower TWIN_REFUSED (R313). -/
def countError (code : Nat) (s : State) : State :=
  bumpIf (code == errTwinSplit) (key 0xB001 7) 1 (bumpIf (code != 0) (key 0x2050 9) 1 s)

/-- ERROR. -/
def replyError (m : CanReq) (k code off : Nat) (s : State) : State :=
  sendReply m 6 (objHead k ++ bytesOf 1 code ++ bytesOf 4 off) (countError code s)

/-- WRITE_REPLY. -/
def replyWrite (m : CanReq) (k n : Nat) (s : State) : State := sendReply m 5 (objHead k ++ [0] ++ bytesOf 4 n) s

/-! ## The register window -/

def getWin (s : State) (k : Bool) : WinChannel := if k then s.dict.win1 else s.dict.win0

def modWin (k : Bool) (f : WinChannel → WinChannel) (s : State) : State :=
  { s with dict := (if k then { s.dict with win1 := f s.dict.win1 } else { s.dict with win0 := f s.dict.win0 }) }

/-- R415: the channel's command completes. -/
def winDone (k : Bool) (code : Nat) (s : State) : State := modWin k (fun w => { w with error := code, busy := false }) (countError code s)

/-! ## Completion of a write -/

/-- The write's outcome reaches its requester. A row that carries no transaction sends no reply (log 4). -/
def finishFor (by_ : Requester) (req : Option CanReq) (k size code : Nat) (s : State) : State :=
  match by_, req with
  | .win c, _ => winDone c code s
  | .can _, some m => if code == 0 then replyWrite m k size s else replyError m k code (payNum m.payload 8 4) s
  | .can _, none => countError code s

/-- Waiting writes that satisfy p complete with a code. -/
def finishWaiting (p : Waiting → Bool) (code : Nat) (s : State) : State :=
  let l := s.dict.waiting.filter p
  forEach l (fun w s => finishFor w.by_ w.req w.key w.size code s)
    { s with dict := { s.dict with waiting := s.dict.waiting.filter (fun w => !p w) } }

/-! ## The flash (R390, R391) -/

/-- R391: sequence number `a` is the higher of two, modulo 2^32 within half the range. -/
def seqHigher (a b : BitVec 32) : Bool := a != b && decide ((a - b).toNat < 2 ^ 31)

/-- R391: copy B governs. -/
def governsB (f : Flash) : Bool :=
  match f.copyA, f.copyB with
  | some a, some b => seqHigher b.seq a.seq
  | none, some _ => true
  | _, none => false

/-- R391: the governing copy; none where neither can be read. -/
def governingCopy (f : Flash) : Option IdentCopy := if governsB f then f.copyB else f.copyA

/-- R391: an update writes the other copy with the sequence number plus one. -/
def writeCopy (i : Ident) (f : Flash) : Flash :=
  let c : IdentCopy := { seq := (match governingCopy f with | some g => g.seq + 1 | none => 0), content := i }
  if governsB f then { f with copyA := some c } else { f with copyB := some c }

/-- The copy that an update writes is unreadable until the write is complete. -/
def spoilCopy (f : Flash) : Flash := if governsB f then { f with copyA := none } else { f with copyB := none }

def slotImage (f : Flash) (b : Bool) : Option PatchImage := if b then f.imgB else f.imgA
def setSlotImage (b : Bool) (v : Option PatchImage) (f : Flash) : Flash := if b then { f with imgB := v } else { f with imgA := v }

/-- Offset and length of a job's area (Table 17.1); the copies of the identity block alternate, and their offsets within the
64 KiB are not given: its start is named. -/
def jobArea : FlashJob → Nat × Nat
  | .patch b i _ => ((if b then 0x410000 else 0x10000), i.length)
  | .package k _ => (0x2000000 + k * 0x400000, 0x400000)
  | .ident _ _ => (0, 4096)

/-- A flash write begins. -/
def startJob (j : FlashJob) (s : State) : State :=
  let a := jobArea j
  emit (.flash a.1 a.2) { s with boot := { s.boot with jobs := s.boot.jobs ++ [j] } }

/-- R391: a change of the identity block, written to the other copy; an unusable flash keeps none. -/
def writeIdent (commit : Bool) (f : Ident → Ident) (s : State) : State :=
  let i := f s.boot.ident
  let s := { s with boot := { s.boot with ident := i } }
  if flashOk s then startJob (.ident i commit) s else s

/-- A change of the identity block that is no FW_COMMIT's. -/
def changeIdent (f : Ident → Ident) (s : State) : State := writeIdent false f s

/-- A write of the identity block. -/
def isIdentJob (j : FlashJob) : Bool := match j with | .ident _ _ => true | _ => false

/-- R395: a change that must stand in the flash before the start goes on. The block it writes holds every earlier change too, so that no
earlier write of the block is left to follow it. -/
def fixIdent (f : Ident → Ident) (s : State) : State :=
  let i := f s.boot.ident
  let s := { s with boot := { s.boot with ident := i } }
  if flashOk s then
    emit (.flash 0 4096) { s with boot := { s.boot with
      flash := writeCopy i s.boot.flash, jobs := s.boot.jobs.filter (fun j => !isIdentJob j) } }
  else s

end Sys2Proof.Machine
end

