-- ==== Sys2Proof/Machine/TestContent.lean ====
section
/-! DEFINITION. Test content (16): packages and their checks, the test schedule, verdicts, and the writes that edit the history. -/

namespace Sys2Proof.Machine

/-! ## Packages (R386, Tables 16.7 and 16.8) -/

/-- `n` bytes at offset `o` of a byte string. -/
def sub (l : List Byte) (o n : Nat) : Nat := payNum l o n

/-- The bit of Table 16.7's configuration mask. -/
def configBit (hw : Hw) : Nat := match hw.variant with | .t8 => 0 | .t16 => 1 | .t32 => 2

/-- Code 0x1: the header. -/
def packageHeaderOk (l : List Byte) : Bool :=
  sub l 0 4 == 0x544B4347 && sub l 4 2 == 1 && sub l 6 1 / 8 == 0 && sub l 7 1 == 0
  && sub l 12 4 % 256 == 0 && sub l 12 4 ≤ 4194304 && sub l 12 4 == l.length
  && 1 ≤ sub l 16 2 && sub l 16 2 ≤ 4096 && sub l 18 2 == 0
  && sub l 20 4 % 256 == 0 && sub l 20 4 + 32 * sub l 16 2 ≤ l.length && sub l 24 232 == 0

/-- The item at offset `o`. -/
def itemAt (l : List Byte) (o : Nat) : TestItem :=
  { number := BitVec.ofNat 32 (sub l o 4), unitType := BitVec.ofNat 8 (sub l (o + 4) 1), startOnly := bitAt (sub l (o + 5) 1) 0
    rowTest := bitAt (sub l (o + 5) 1) 1, duration := BitVec.ofNat 32 (sub l (o + 8) 4), stimOff := BitVec.ofNat 32 (sub l (o + 12) 4)
    stimLen := BitVec.ofNat 32 (sub l (o + 16) 4), signature := BitVec.ofNat 64 (sub l (o + 24) 8) }

def packageItems (l : List Byte) : List TestItem := (List.range (sub l 16 2)).map (fun i => itemAt l (sub l 20 4 + 32 * i))

/-- Code 0x2: one item. -/
def itemOk (s : State) (l : List Byte) (o : Nat) : Bool :=
  let i := itemAt l o
  i.unitType.toNat ≤ 0xA && sub l (o + 5) 1 / 4 == 0 && sub l (o + 6) 2 == 0 && sub l (o + 20) 4 == 0
  && 1 ≤ i.duration.toNat && i.duration.toNat ≤ obj s (key 0x2410 1)
  && i.stimOff.toNat % 256 == 0 && i.stimOff.toNat + i.stimLen.toNat ≤ l.length

/-- Item numbers are unique in the package. -/
def distinct : List Nat → Bool
  | [] => true
  | a :: r => !r.contains a && distinct r

/-- The refusal code of a package image, in ascending order of code; none where it passes. -/
def packageRefusal (s : State) (l : List Byte) : Option Nat :=
  if !packageHeaderOk l then some 1
  else if !((List.range (sub l 16 2)).all (fun i => itemOk s l (sub l 20 4 + 32 * i))
      && distinct ((packageItems l).map (·.number.toNat))) then some 2
  else if !bitAt (sub l 6 1) (configBit s.hw) then some 3
  else none

def packageOf (l : List Byte) : Package :=
  { id := BitVec.ofNat 32 (sub l 8 4), digest := digestNum (sha384 (l.map BitVec.toNat)), items := packageItems l }

/-- The slot a package goes into: that of its PACKAGE_ID, else TC_SEL when empty. -/
def packageSlot (s : State) (p : Package) : Option Nat :=
  match s.tests.packages.find? (fun e => e.2.id == p.id) with
  | some e => some e.1
  | none =>
    let k := obj s (key 0x8000 4)
    if s.tests.packages.any (fun e => e.1 == k) then none else some k

/-- A package begins its way into a slot's flash; what the twin measured of the slot is of no use for it. -/
def writePackage (slot : Nat) (p : Package) (s : State) : State :=
  startJob (.package slot p) { s with tests := { s.tests with
    pending := tins s.tests.pending slot p, measuredTwin := tdel s.tests.measuredTwin slot } }

/-- A slot is empty from now on. -/
def removePackage (k : Nat) (s : State) : State :=
  { s with tests := { s.tests with
    packages := tdel s.tests.packages k, effective := tdel s.tests.effective k, measuredTwin := tdel s.tests.measuredTwin k } }

/-- R386: the install of an image; at the twin that mirrors, the package is sent on. -/
def installImage (l : List Byte) (s : State) : State :=
  match packageRefusal s l with
  | some c => { s with tests := { s.tests with refusal := c } }
  | none =>
    let p := packageOf l
    match packageSlot s p with
    | none => { s with tests := { s.tests with refusal := 4 } }
    | some k =>
      let s := writePackage k p { s with tests := { s.tests with refusal := 0 } }
      if mirrorFlows s then sendTwin (.package (BitVec.ofNat 3 k) p) s else s

/-- A package of a slot is in force from now on. -/
def putInForce (slot : Nat) (p : Package) (s : State) : State :=
  { s with tests := { s.tests with effective := tins s.tests.effective slot p } }

/-- R386: this twin tells the other that it has measured a slot's package, while mirror traffic flows or a mirror is sent (log 149). -/
def sendMeasured (slot : Nat) (p : Package) (s : State) : State :=
  if mirrorFlows s || (twinDrives s && !s.twin.silent && s.twin.role == .joining) then sendTwin (.measured (BitVec.ofNat 3 slot) p.digest) s else s

/-- R386: a package in place is measured (register 2). On the authority of a split it is in force at once, but not within a test slot
(R388). -/
def placePackage (slot : Nat) (p : Package) (s : State) : State :=
  let s := extendMeas 2 3 p.id.toNat p.digest
    { s with tests := { s.tests with packages := tins s.tests.packages slot p, pending := tdel s.tests.pending slot } }
  sendMeasured slot p (if s.twin.role == .splitAuth && !s.plan.testSlot then putInForce slot p s else s)

/-- R386: this twin need not wait for another to have measured a package. -/
def measuresAlone (s : State) : Bool :=
  match s.twin.role with
  | .splitAuth => true
  | .sole => true
  | .joining => true
  | _ => false

/-- R386: at the beginning of a test slot the packages that both twins have measured are in force. -/
def enforcePackages (s : State) : State :=
  forEach s.tests.packages (fun e s =>
    if measuresAlone s || s.tests.measuredTwin.any (fun m => m.1 == e.1 && m.2 == e.2.digest) then putInForce e.1 e.2 s else s) s

/-- TC_CMD 0x02. Paired twins each remove; an authority that sends a full mirror tells the other that the slot is empty (R315, log 183). -/
def removeCommand (k : Nat) (s : State) : State :=
  let s := removePackage k s
  if mirrorFlows s && s.twin.mirroring then sendTwin (.mirrorSlot (BitVec.ofNat 3 k) none) s else s

/-- TC_CMD takes effect (R386): the install runs at the authority, from the image of the twin that received the write. -/
def tcCommand (v : Nat) (passedOn : Bool) (s : State) : State :=
  if v == 1 then
    if s.twin.auth || s.twin.role == .joining then
      match (if passedOn then s.tests.fromFollower else s.tests.staging) with
      | some l =>
        installImage l { s with tests := (if passedOn then { s.tests with fromFollower := none } else { s.tests with staging := none }) }
      | none => s
    else s
  else if v == 2 then
    removeCommand (obj s (key 0x8000 4)) s
  else if v == 3 then { s with tests := { s.tests with staging := none } }
  else s

/-! ## Writes that edit the history (R385) -/

/-- HIST_VOID: a KIND 0x08 entry naming SEQ, with the source of the entry voided. -/
def histVoidW (v : Nat) (s : State) : State :=
  match s.hist.own.find? (fun e => e.seq.toNat == v) with
  | some e => histEntry 8 v (eventRecord s (rcSource e.record.toNat) 0 0) s
  | none => s

/-- HIST_CLEAR at one twin: the histories its value names go. -/
def clearHist (v : Nat) (s : State) : State :=
  let own := bitAt v (b2n s.boot.twinIdx)
  let other := bitAt v (b2n (!s.boot.twinIdx))
  let h := s.hist
  let h := if own then { h with own := [], nextSeq := 0, unsent := 0 } else h
  { s with hist := if other then { h with twin := [] } else h }

/-- HIST_CLEAR: both twins erase (log 33: the write reaches the twin as a shared write does). -/
def histClearW (v : Nat) (s : State) : State :=
  let s := clearHist v s
  if twinFlows s then sendTwin (.shareAssigned (BitVec.ofNat 16 s.twin.gen) (key 0x9000 5) v 0 false) s else s

/-! ## Test slots (R240, R381) -/

/-- Table 16.3: the sources due, in order. -/
def dueSources (s : State) : List Nat :=
  let hp := max 1 (obj s (key 0x8010 2))
  let n := obj s (key 0x8010 1)
  let l := allSources s.hw
  let w := l.filter (fun k => (getSrc s k).watch && !s.tests.deferred.contains k)
  s.tests.deferred ++ w ++ l.filter (fun k => !(getSrc s k).watch && !s.tests.deferred.contains k && n % hp == k % hp)

/-- The sources that test controller 38 serves, those of islands 0 to 23 (Table 13.1); all others are controller 39's. A queue is served
where its consumer island is (log 150). -/
def nearSource (k : Nat) : Bool :=
  let q := k - 0x700
  match k / 256 with
  | 0 | 1 | 2 | 3 | 4 | 5 => true
  | 7 | 8 => decide (q < 0x60) || (decide (0xB0 ≤ q) && decide (q < 0xC8)) || (decide (0x104 ≤ q) && decide (commandIsland (q - 0x104) < 24))
  | 10 => decide (k % 256 < 24)
  | _ => false

/-- The sources due in the slot that the test controller of source `k` serves, in order. -/
def controllerDue (s : State) (near : Bool) : List Nat := s.tests.due.filter (fun j => nearSource j == near)

/-- The part of a controller's list that begins with the last source it has tested in this slot: units are tested in order. -/
def dueFrom (tested l : List Nat) : List Nat :=
  let r := l.reverse.takeWhile (fun k => !tested.contains k)
  match l.reverse.drop r.length with
  | [] => l
  | last :: _ => last :: r.reverse

/-- The plan's test slot that is in progress at a tick, or comes next. -/
def testSlotAt (s : State) (tick : Nat) : Option (Nat × Nat) :=
  let l := match s.plan.active with | some im => testSlots im | none => []
  match l.find? (fun t => decide (tick < s.plan.frameTick + t.2)) with
  | some t => some t
  | none => l.getLast?

/-- The length of the test slot that begins now. -/
def testSlotLength (s : State) : Nat :=
  match testSlotAt s s.clock.tick with | some t => t.2 - t.1 | none => obj s (key 0x2410 1)

/-- R240: the sequencer on whose unit a source lies. -/
def sourceSeq (k : Nat) : Option Nat :=
  match sourceCluster k with
  | some c => some c
  | none => if k / 256 == 6 then some (32 + k % 256 / 4) else if k == 0x900 then some 48 else none

/-- R240: the test entries with a program that sequencer q has within the test slot in progress; a fenced one runs none. -/
def ownTests (s : State) (q : Nat) : Nat :=
  match seqImage s q, testSlotAt s s.tests.slotFrom with
  | some si, some t =>
    if seqFenced s q then 0
    else (si.slots.filter (fun e => slotKind e.toNat == 1 && slotEntry e.toNat != 0x1FFF && decide (t.1 ≤ slotStart e.toNat)
      && decide (slotStart e.toNat < t.2))).length
  | _, _ => 0

/-- R240: the tick from which the units of the source's sequencer are under test in the test slot in progress: its start, or the end of
the sequencer's own test entries; none before that. -/
def testsFrom (s : State) (k : Nat) : Option Nat :=
  match sourceSeq k with
  | none => some s.tests.slotFrom
  | some q =>
    let sq := getSeq s q
    if sq.testEnds.length < ownTests s q then none else some ((sq.testEnds.head?).getD s.tests.slotFrom)

/-- TEST_SLOT_START (R240, R380, R381). -/
def execTestSlotStart (s : State) : Host.Outcome State Fault Refusal :=
  guarded true s fun s =>
    whenS (framesRun s && !s.plan.testSlot && !s.faults.fatal) s fun s =>
      let s := evalWatch (bump (key 0x8010 1) 1 s)
      let due := dueSources s
      let s := enforcePackages s
      { s with
        plan := { s.plan with testSlot := true }
        tests := { s.tests with
          due := due, deferred := [], tested := [], slotFrom := s.clock.tick, slotTo := s.clock.tick + testSlotLength s }
        seqs := tmap .idle (fun q => { q with suspended := q.suspended || q.running, testEnds := [] }) s.seqs }

/-- R381: the units due that the slot leaves untested, in the same order: those without a verdict in it, and those that their controller
has not finished (log 182). -/
def leftUntested (s : State) (untested : List (BitVec 12)) : List Nat :=
  s.tests.due.filter (fun k => !s.tests.tested.contains k || untested.any (fun u => u.toNat == k))

/-- TEST_SLOT_END (R240, R381): units due and not tested are deferred, in their order; the frames that the slot held back leave. -/
def execTestSlotEnd (untested : List (BitVec 12)) (s : State) : Host.Outcome State Fault Refusal :=
  guarded true s fun s =>
    whenS s.plan.testSlot s fun s =>
      let d := leftUntested s untested
      let s := bump (key 0x8010 3) d.length
        { s with
          plan := { s.plan with testSlot := false }
          tests := { s.tests with due := [], tested := [], deferred := d }
          seqs := tmap .idle (fun q => { q with suspended := false }) s.seqs }
      settleLinks (forEach (List.range (nPorts s.hw)) sendOwed s)

/-! ## Verdicts (R382) -/

/-- Table 16.4. -/
def verdictRecord (s : State) (src pkg item result : Nat) : Nat :=
  put s.clock.time 64 64 + put src 52 12 + put pkg 48 4 + put item 16 32 + put result 14 2 + put (obj s (key 0x8010 1)) 0 14

/-- One verdict record is posted. -/
def postVerdict (src pkg item result : Nat) (s : State) : State :=
  postRing (key 0x8020 1) (key 0x8021 1) (verdictRecord s src pkg item result) s

/-- What the controllers run: the built-in set, or an item for the source's unit type of an installed package at a cold start (R379), of a
package in force in a test slot (R386), where the item fits between the tick from which the unit is under test and the slot's end (R240, R387). -/
def testItem (s : State) (src pkg item : Nat) : Option (Option TestItem) :=
  if pkg == 0xF then some none
  else
    let start := s.boot.phase == .tests
    let l := if start then s.tests.packages else s.tests.effective
    let unit (i : TestItem) : Bool := i.unitType.toNat == src / 256 || (decide (i.unitType.toNat ≤ 2) && decide (src / 256 ≤ 2))
    let fits (i : TestItem) : Bool :=
      match testsFrom s src with
      | some t => decide (t + i.duration.toNat ≤ s.clock.tick) && decide (s.clock.tick ≤ s.tests.slotTo)
      | none => false
    match l.find? (fun e => e.1 == pkg) with
    | some e => (e.2.items.find? (fun i => i.number.toNat == item && unit i && (start || (!i.startOnly && fits i)))).map some
    | none => none

/-- Where an item may come to its verdict: at a cold start (R379); in a test slot, on a source due, in order (R381), once its sequencer's
own test entries have ended (R240); the built-in sanity subset for 5 ms of a warm start, while no plan is active (Table 17.3, log 110). -/
def verdictTime (s : State) (src pkg : Nat) : Bool :=
  s.boot.phase == .tests
  || (s.plan.testSlot && (dueFrom s.tests.tested (controllerDue s (nearSource src))).contains src && (testsFrom s src).isSome)
  || (pkg == 0xF && s.plan.mode == .none && (match s.boot.sanityEnd with | some t => decide (s.clock.tick ≤ t) | none => false))

/-- The source has been tested in the slot in progress. -/
def markTested (src : Nat) (s : State) : State :=
  if s.plan.testSlot && !s.tests.tested.contains src then { s with tests := { s.tests with tested := s.tests.tested ++ [src] } } else s

/-- A failing item: its report (not appended again, R383), its history entry, its verdict record. -/
def failItem (src pkg item : Nat) (row : Option (Nat × Nat)) (s : State) : State :=
  let detail := match row with | some r => (rowDetail s src r.1 r.2).2 | none => 0
  let d := readSensors { source := BitVec.ofNat 12 src, cls := .contained, access := 0xB, syndrome := BitVec.ofNat 16 item
                         detail := BitVec.ofNat 24 detail } s
  let rep : Report := { d := d, forced := false, test := true, rowTest := row, time := s.clock.time, frame := s.plan.frame }
  let s := { s with faults := { s.faults with reports := s.faults.reports ++ [rep] }, freeIdx := s.freeIdx + 1 }
  let s := poisonRaised d s
  postVerdict src pkg item 1 (histFault 5 (recordOf d rep.time rep.frame 0 false false) s)

/-- TEST_ITEM_VERDICT. -/
def execTestItemVerdict (source : BitVec 12) (pkg : BitVec 4) (item : BitVec 32) (signature : BitVec 64) (builtinPass : Bool)
    (bank row : BitVec 8) (s : State) : Host.Outcome State Fault Refusal :=
  guarded (srcExists s.hw source.toNat) s fun s =>
    let k := source.toNat
    whenS (verdictTime s k pkg.toNat && !s.faults.fatal) s fun s =>
      match testItem s k pkg.toNat item.toNat with
      | none => s
      | some i =>
        let s := markTested k s
        let pass := match i with | some i => signature == i.signature | none => builtinPass
        let rt := match i with | some i => i.rowTest && (rowUnit k).isSome | none => false
        if pass then bump (key 0x8020 2) 1 s
        else failItem k pkg.toNat item.toNat (if rt then some (bank.toNat, row.toNat) else none) s

end Sys2Proof.Machine
end

