-- ==== Sys2Proof/Machine/Twin.lean ====
section
/-! DEFINITION. Twin pairing (12): shared writes, the croak, silence and its verdicts, split, rejoin and takeover; the epoch's
acquisition and the end of a cold start (R398, R392 step 11), which both may follow from the twin. -/

namespace Sys2Proof.Machine

/-! ## Authority (R305) -/

def ownIdx (s : State) : Nat := b2n s.boot.twinIdx

/-- TWIN_AUTH. -/
def authKey : Nat := key 0xB000 2

/-- Authority is with this twin, or with the other. -/
def setAuth (mine : Bool) (s : State) : State :=
  setObj authKey (if mine then ownIdx s else 1 - ownIdx s) { s with twin := { s.twin with auth := mine } }

def setRole (r : Role) (s : State) : State := { s with twin := { s.twin with role := r } }

/-- Table 19.8: the objects of access RWT. -/
def sharedKeys (hw : Hw) : List Nat :=
  ((fams hw).filter (fun f => f.acc == .rwt)).flatMap (fun f =>
    (List.range f.n).flatMap (fun i => (List.range (f.hi - f.lo + 1)).map (fun k => key (f.idx + i) (f.lo + k))))

/-! ## The epoch (R286, R288, R398) -/

def epochKey : Nat := key 0x6100 1
def pendingKeyEpoch : Nat := key 0x6100 2

/-- R288: the new epoch stands; every port resynchronises; the identity block records it. -/
def setEpoch (v : Nat) (s : State) : State :=
  let s := setObj epochKey v s
  let s := if obj s pendingKeyEpoch == 0x8000 + v then setObj pendingKeyEpoch 0 s else s
  let s := changeIdent (fun i => { i with lastEpoch := BitVec.ofNat 12 v }) s
  forEach (List.range (nPorts s.hw)) (fun p s => modPort p (fun q => { q with epochResync := q.st == 1 && framesRun s }) (resyncPort p s)) s

/-- R392, step 11: every link port resynchronises, the start record is measured, the start is complete. -/
def finishCold (s : State) : State :=
  let s := { s with boot := { s.boot with phase := .ready } }
  let s := forEach (List.range (nPorts s.hw)) startResync s
  notify 6 0xC000 7 (extendStart 1 s)

/-- R398: the epoch is acquired from a source; the authority passes it to its follower. -/
def acquireEpoch (v src : Nat) (s : State) : State :=
  let v := v % 4096
  let s := setObj epochKey v (setObj (key 0x6100 3) (0x8000 + v) (setObj (key 0x6100 4) src s))
  let s := if s.boot.ident.lastEpoch.toNat == v then s else changeIdent (fun i => { i with lastEpoch := BitVec.ofNat 12 v }) s
  let s := if twinFlows s && s.twin.auth then sendTwin (.mirrorItem epochKey v) s else s
  finishCold s

/-- R392, step 9: the counters (the objects whose rules say that they advance), by index and subindex. HIST_BAD, which the same start
advanced at step 6, stands (log 88). -/
def isCounter (k : Nat) : Bool :=
  let i := k / 256
  let j := k % 256
  let runs (a b : Nat) : Bool := decide (a ≤ i) && decide (i ≤ b)
  let subs (x a b : Nat) : Bool := i == x && decide (a ≤ j) && decide (j ≤ b)
  subs 0x1200 3 5 || i == 0x2012 || runs 0x2021 0x2023 || i == 0x2031 || runs 0x2040 0x204A || subs 0x2050 6 10 || subs 0x2060 2 3
  || subs 0x2400 9 9 || subs 0x2400 13 13 || runs 0x2412 0x2413 || subs 0x2504 1 1 || subs 0x2506 1 1 || i == 0x2508 || i == 0x3070
  || subs 0x3090 1 1 || runs 0x3100 0x3101 || runs 0x4010 0x4012 || runs 0x5010 0x5013 || runs 0x5180 0x5181
  || (runs 0x6000 0x600F && decide (11 ≤ j)) || subs 0x7000 2 8 || subs 0x8010 1 1 || subs 0x8010 3 3 || i == 0x8020
  || subs 0x9000 7 7 || runs 0xA000 0xA038 || subs 0xA100 2 2 || i == 0xB001

/-- R392, step 9: scale files with their histories, the region table, the retired page list and all counters are cleared. -/
def clearAtStart (s : State) : State :=
  let cleared (k : Nat) : Bool :=
    isCounter k || (decide (0x3000 ≤ k / 256) && decide (k / 256 < 0x3040)) || (decide (0x3081 ≤ k / 256) && decide (k / 256 ≤ 0x3084))
  { s with
    objs := s.objs.filter (fun e => !cleared e.1)
    clusters := tmap .idle (fun c => { c with scale := [] }) s.clusters
    faults := { s.faults with src := tmap .clear (fun v => { v with count := 0 }) s.faults.src } }

/-- R398: an authority that waits for its epoch takes the one already written to EPOCH_ACQ. -/
def takeGiven (s : State) : State :=
  match s.boot.epochGiven with
  | some v => if s.boot.phase == .epochWait && s.twin.auth then acquireEpoch v 2 s else s
  | none => s

/-- Steps 9 and 10: what the start clears; then the follower of a twin that already runs takes its epoch through the mirror, an authority
the one already written to EPOCH_ACQ. -/
def beginEpoch (fromMirror : Bool) (s : State) : State :=
  let s := clearAtStart { s with boot := { s.boot with phase := .epochWait } }
  match (if fromMirror then s.twin.mirrorIn.find? (fun e => e.1 == epochKey) else none) with
  | some e => acquireEpoch e.2 1 s
  | none => takeGiven s

/-- TWIN_AUTH takes effect at one of the paired twins. -/
def moveAuth (v : Nat) (s : State) : State :=
  let mine := v == ownIdx s
  takeGiven (setRole (if mine then .pairedAuth else .pairedFollower) (setAuth mine s))

/-! ## Shared writes (R306) -/

/-- A shared write takes effect. -/
def applyShared (w : SharedWrite) (s : State) : State :=
  let s := setObj (key 0xB000 5) w.gen s
  if w.key == epochKey then setEpoch w.value s
  else
    let s := setObj w.key w.value s
    if w.key == key 0x8000 3 then tcCommand w.value w.passedOn s else s

/-- The accepted writes whose frame start has come take effect, in order; those of a silent twin wait for its verdict (R311). -/
def applyDue (s : State) : State :=
  if s.twin.silent then s
  else
    let l := s.twin.shared.filter (fun w => w.starts == 0)
    forEach l applyShared { s with twin := { s.twin with shared := s.twin.shared.filter (fun w => w.starts != 0) } }

/-- One frame start passes. -/
def countStarts (s : State) : State :=
  applyDue { s with twin := { s.twin with shared := s.twin.shared.map (fun w => { w with starts := w.starts - 1 }) } }

/-- A write joins the shared state; where no frames run it takes effect at once (log 34). -/
def enqueueShared (w : SharedWrite) (s : State) : State :=
  let s := if w.key == epochKey then setObj pendingKeyEpoch (0x8000 + w.value) s else s
  applyDue { s with twin := { s.twin with shared := s.twin.shared ++ [w] } }

/-- Change the first element that satisfies p. -/
def modFirst {α : Type} (p : α → Bool) (f : α → α) : List α → List α
  | [] => []
  | a :: r => if p a then f a :: r else a :: modFirst p f r

/-- An own write that has no generation yet. -/
def unassigned (k : Nat) (w : Waiting) : Bool := w.key == k && w.gen.isNone

/-- The authority accepts a write: the next generation, the second frame start from now as its target, the follower told. -/
def acceptShared (k v : Nat) (passedOn : Bool) (s : State) : State :=
  let g := (s.twin.gen + 1) % 65536
  let s := { s with twin := { s.twin with gen := g } }
  let s := if passedOn then s
    else { s with dict := { s.dict with waiting := modFirst (unassigned k) (fun w => { w with gen := some g }) s.dict.waiting } }
  let target := if framesRun s then s.plan.frame + 2 else 0
  let s := if twinFlows s then sendTwin (.shareAssigned (BitVec.ofNat 16 g) k v target passedOn) s else s
  enqueueShared { gen := g, key := k, value := v, starts := if framesRun s then 2 else 0, passedOn := passedOn } s

/-- Writes this twin holds until it can pass them on or apply them. -/
def holdShared (k v : Nat) (s : State) : State := { s with twin := { s.twin with held := s.twin.held ++ [(k, v)] } }

/-- R306, R313, R315: the reply to a shared write waits for the other twin, or for what holds the write. -/
def sharedWaits (s : State) : Bool :=
  match s.twin.role with
  | .pairedAuth => true
  | .pairedFollower => true
  | .joining => true
  | .splitAuth => s.twin.mirroring
  | .sole => s.twin.mirroring
  | .splitFollower => false

/-- A TC_CMD install. -/
def isInstall (k v : Nat) : Bool := k == key 0x8000 3 && v == 1

/-- R386: a follower passes its staged package on before the install command. -/
def passStaged (k v : Nat) (s : State) : State :=
  match s.tests.staging with
  | some l => if isInstall k v then sendTwin (.staged l) s else s
  | none => s

/-- A write of a shared object that passed the checks (R306, R313, R315). While a quiesce holds the twin port (R443) paired twins hold it. -/
def writeShared (k v : Nat) (s : State) : State :=
  if !twinDrives s && (s.twin.role == .pairedAuth || s.twin.role == .pairedFollower) then holdShared k v s
  else match s.twin.role with
  | .pairedAuth => acceptShared k v false s
  | .pairedFollower => if s.twin.silent then holdShared k v s else sendTwin (.shareRequest k v) (passStaged k v s)
  | .splitAuth => if s.twin.mirroring then holdShared k v s else acceptShared k v false s
  | .sole => if s.twin.mirroring then holdShared k v s else acceptShared k v false s
  | .splitFollower => s
  | .joining => holdShared k v s

/-! ## The mirror (R307, R315) -/

/-- The own history entries that the twin has not been sent. -/
def flushHist (s : State) : State :=
  let l := s.hist.own.filter (fun e => decide (s.hist.unsent ≤ e.seq.toNat))
  forEach l (fun e s => sendTwin (.history e) s) { s with hist := { s.hist with unsent := s.hist.nextSeq } }

/-- R315: the entries that the twin may lack: the own ones not sent, and the copy held of its own, so that each history becomes the union. -/
def mirrorHist (s : State) : State := forEach s.hist.twin (fun e s => sendTwin (.history e) s) (flushHist s)

/-- R313, R315: the value the mirror carries: that of the last accepted write still to take effect, else the object's. -/
def mirrorValue (s : State) (k : Nat) : Nat :=
  match (s.twin.shared.filter (fun w => w.key == k)).getLast? with
  | some w => w.value
  | none => obj s k

/-- What a package slot holds, or is being given. -/
def slotPackage (s : State) (k : Nat) : Option Package :=
  ((s.tests.pending ++ s.tests.packages).find? (fun e => e.1 == k)).map (·.2)

/-- R315: the full mirror: every shared object, the histories, every package slot. A package in place is measured already. -/
def sendMirror (s : State) : State :=
  let s := forEach (sharedKeys s.hw) (fun k s => sendTwin (.mirrorItem k (mirrorValue s k)) s) s
  let s := forEach (List.range 8) (fun k s => sendTwin (.mirrorSlot (BitVec.ofNat 3 k) (slotPackage s k)) s) (mirrorHist s)
  forEach s.tests.packages (fun e s => sendMeasured e.1 e.2 s) s

/-- The authority begins a rejoin's mirror. -/
def startMirror (s : State) : State := sendMirror { s with twin := { s.twin with mirroring := true } }

/-- The follower's shared objects take the mirrored values; a running one changes its epoch as by a write (R315). -/
def applyMirror (s : State) : State :=
  forEach s.twin.mirrorIn (fun e s =>
    if e.1 == epochKey && s.boot.phase == .ready then (if epochOf s != e.2 then setEpoch e.2 s else s) else setObj e.1 e.2 s) s

/-- Writes that were held go on. -/
def releaseHeld (s : State) : State :=
  forEach s.twin.held (fun w s => writeShared w.1 w.2 s) { s with twin := { s.twin with held := [] } }

/-- R313, R315: the test content commands that a split authority has accepted and that are still due: the mirror carries objects, not their
effect, so the follower is given them as it is given a shared write. -/
def shareCommands (s : State) : State :=
  forEach (s.twin.shared.filter (fun w => w.key == key 0x8000 3)) (fun w s =>
    sendTwin (.shareAssigned (BitVec.ofNat 16 w.gen) w.key w.value (if framesRun s then s.plan.frame + w.starts else 0) false) s) s

/-- R315: the twins return to PAIRED roles; held writes go on. -/
def rejoin (s : State) : State :=
  let split := s.twin.role == .splitAuth || s.twin.role == .joining
  let s := if s.twin.auth then s else applyMirror s
  let s := setRole (if s.twin.auth then .pairedAuth else .pairedFollower) s
  let s := setObj (key 0x1010 2) s.twin.mirrorInst (bumpIf split (key 0xB001 6) 1
    { s with twin := { s.twin with mirroring := false, mirrorDone := false, mirrorIn := [], deadDies := false, validRun := 0 } })
  let s := flushHist s
  releaseHeld (if s.twin.auth && twinFlows s then shareCommands s else s)

/-- R315: eight consecutive windows have carried a valid croak of a split role. A twin that knew of no split, for it was starting (Table
17.6, step 8), takes the part that its authority gives it (log 98). -/
def endSplit (s : State) : State :=
  match s.twin.role with
  | .splitAuth => if s.twin.mirroring then s else startMirror s
  | .splitFollower => mirrorHist (setRole .joining s)
  | .pairedFollower => mirrorHist (setRole .joining { s with hist := { s.hist with unsent := 0 } })
  | .pairedAuth => startMirror (setRole .splitAuth { s with hist := { s.hist with unsent := 0 } })
  | _ => s

/-! ## Verdicts (R311 to R316) -/

/-- LAST_VERDICT and the twin notification; the probe ends. The twin may lack entries sent before the silence, so that a rejoin sends the
whole own history; it keeps each entry once (R315). -/
def recordVerdict (v : Nat) (s : State) : State :=
  notify 3 0xB000 7 (setObj (key 0xB000 7) (put v 62 2 + put s.clock.time 0 62)
    { s with
      hist := { s.hist with unsent := 0 }
      twin := { s.twin with
        silent := false, tries := 0, acked := false, validRun := 0, mirroring := false, mirrorDone := false } })

/-- A TWIN_AUTH write of this value has taken effect at this twin. -/
def authMoved (s : State) (v : Nat) : Bool := s.twin.auth == (v == ownIdx s)

/-- R305, R318: the role of the other, first heard after a TWIN_AUTH write took effect here, shows whether it did there too; if not, authority
is where it was (log 97). -/
def settleAuth (role : Option Nat) (s : State) : State :=
  match role, s.twin.authPending with
  | some r, some v =>
    if !authMoved s v then s
    else
      let s := { s with twin := { s.twin with authPending := none } }
      if (r == 0 || r == 2 || r == 4) == s.twin.auth then
        let mine := !s.twin.auth
        let paired := s.twin.role == .pairedAuth || s.twin.role == .pairedFollower
        let s := setAuth mine s
        if paired then setRole (if mine then .pairedAuth else .pairedFollower) s else s
      else s
  | _, _ => s

/-- R318: a TWIN_AUTH write in progress is abandoned: authority stays where it was, and the write is refused. -/
def abandonAuth (s : State) : State :=
  let s := match s.twin.authPending with
    | some v => if authMoved s v then s else { s with twin := { s.twin with authPending := none } }
    | none => s
  finishWaiting (fun w => w.key == authKey) errTwinSplit s

/-- R313: a split verdict (1), or an isolated one (3); `role` is the other's, where the probe's reply reported it. -/
def verdictSplit (v : Nat) (role : Option Nat) (s : State) : State :=
  let s := settleAuth role (bump (key 0xB001 4) 1 (recordVerdict v s))
  if s.twin.auth then
    let held := s.twin.held
    let s := applyDue (setRole .splitAuth { s with twin := { s.twin with held := [] } })
    let s := forEach held (fun w s => acceptShared w.1 w.2 false s) s
    finishWaiting (fun _ => true) 0 s
  else
    let s := setObj pendingKeyEpoch 0 (setRole .splitFollower { s with twin := { s.twin with held := [], shared := [], mirrorIn := [] } })
    finishWaiting (fun _ => true) errTwinSplit s

/-- R311, R316: the survivor applies what it held, and answers it. -/
def applyHeld (s : State) : State :=
  let held := s.twin.held
  let s := applyDue { s with twin := { s.twin with held := [] } }
  finishWaiting (fun _ => true) 0 (forEach held (fun w s => acceptShared w.1 w.2 false s) s)

/-- R310, R316: a death verdict; a SOLE twin has taken over already. -/
def verdictDeath (s : State) : State :=
  let s := { s with twin := { s.twin with authPending := none } }
  if s.twin.role == .sole then applyHeld (recordVerdict 2 s)
  else
    let s := bump (key 0xB001 5) 1 (setRole .sole (setAuth true (recordVerdict 2 s)))
    let s := applyHeld { s with twin := { s.twin with deadDies := true }, plan := { s.plan with takeover := framesRun s } }
    if s.boot.phase == .handshake then beginEpoch false s else takeGiven s

/-- R311: one transmission of the probe; its tag is the attempt's number (log 35). -/
def sendProbe (s : State) : State :=
  sendCan (canId 2 (twinNode s) (ownNode s) s.twin.tries) ([0x00, 0xB0, 0x01, 0, 0, 0, 0, 0]) s

/-- R311: the shared writes that the follower has received and that no generation names yet; the authority may never have seen them. -/
def heldNow (s : State) : List (Nat × Nat) :=
  if s.twin.role == .pairedFollower then
    (s.dict.waiting.filter (fun w => w.gen.isNone && w.key != authKey)).map (fun w => (w.key, w.value))
  else s.twin.held

/-- R309, R311: silence is declared and the twin probed; with the port bus-off it is isolated. A TWIN_AUTH write in progress is
abandoned (R318). -/
def declareSilence (s : State) : State :=
  let s := bump (key 0xB001 3) 1 { s with twin := { s.twin with silent := true, tries := 0, acked := false, held := heldNow s } }
  let s := abandonAuth s
  if s.dict.busOff then verdictSplit 3 none s else sendProbe s

/-! ## The croak (R308 to R310, R317) -/

/-- The housekeeping controller runs. -/
def controllerUp (s : State) : Bool :=
  match s.boot.phase with
  | .tests => true
  | .handshake => true
  | .epochWait => true
  | .ready => true
  | .quiesced => s.boot.heldFrom == .ready
  | _ => false

/-- CROAK_SEND; after a WARM_N quiesce no VALID output is driven (R443). -/
def execCroakSend (s : State) : Host.Outcome State Fault Refusal :=
  guarded true s fun s => whenS (controllerUp s && twinDrives s && !s.faults.fatal) s (sendCroak false)

/-- R309: the croak is valid. -/
def croakValid (s : State) (w : BitVec 72) : Bool :=
  let r := readWord w
  !r.isBad && fld r.data 56 8 == 0xC5 && bitAt r.data 11 != s.boot.twinIdx

/-- R317: the twin cold-starts and has not settled authority yet: it joins a survivor as its follower (R305). -/
def reviving (s : State) : Bool := s.twin.role == .joining && (s.boot.phase == .tests || s.boot.phase == .handshake)

/-- R317: a croak with ROLE SOLE. -/
def heardSole (s : State) : State :=
  if reviving s then s
  else if s.twin.role != .sole || s.boot.twinIdx then raiseSimple 0x909 .fatal 0xC s else s

/-- R318: a twin that split without authority, having given it up, and has it again is the authority of the split. -/
def resplit (s : State) : State := if s.twin.role == .splitFollower && s.twin.auth then setRole .splitAuth s else s

/-- A valid croak's effect. A silent twin sends no mirror (R311), nor does one that drives nothing (R443). -/
def croakEffect (d : Nat) (s : State) : State :=
  let role := fld d 12 4
  let split := role == 2 || role == 3
  let s := bump (key 0xB001 1) 1 { s with twin := { s.twin with heard := true, heardSplit := s.twin.heardSplit || split, missedRun := 0 } }
  if bitAt d 10 then verdictDeath s
  else if role == 4 then heardSole s
  else if role != 5 then resplit (settleAuth (some role) s)
  else if twinDrives s && !s.twin.mirroring && !s.twin.silent && (s.twin.role == .splitAuth || s.twin.role == .sole) then startMirror s
  else s

/-- CROAK_RX. -/
def execCroakRx (word : BitVec 72) (s : State) : Host.Outcome State Fault Refusal :=
  guarded true s fun s =>
    whenS (controllerUp s && !s.faults.fatal && croakValid s word) s (croakEffect (readWord word).data)

/-- A window without a valid croak. -/
def missWindow (s : State) : State :=
  let n := s.twin.missedRun + 1
  let s := bump (key 0xB001 2) 1 { s with twin := { s.twin with missedRun := n, validRun := 0 } }
  if n == 8 && !s.twin.silent then declareSilence s else s

/-- A window with a valid croak: the eighth in a row that carried a split role ends the split (R315; Table 12.6, step 8), once the twin port
may drive the mirror (R443). -/
def heardWindow (split : Bool) (s : State) : State :=
  let n := if split then s.twin.validRun + 1 else 0
  let s := { s with twin := { s.twin with validRun := n } }
  if n == 8 && !s.twin.silent then (if twinDrives s then endSplit s else { s with twin := { s.twin with validRun := 7 } }) else s

/-! ## The probe (R311, Table 12.4) -/

/-- PROBE_REPLY. -/
def execProbeReply (a : ProbeAnswer) (s : State) : Host.Outcome State Fault Refusal :=
  guarded true s fun s =>
    whenS (s.twin.silent && !s.faults.fatal) s fun s =>
      match a with
      | .state v => if bitAt v.toNat 7 then verdictDeath s else verdictSplit 1 (some (fld v.toNat 0 4)) s
      | .error _ => verdictDeath s

/-- PROBE_TIMEOUT. -/
def execProbeTimeout (acked : Bool) (s : State) : Host.Outcome State Fault Refusal :=
  guarded true s fun s =>
    whenS (s.twin.silent && !s.faults.fatal) s fun s =>
      let n := s.twin.tries + 1
      let s := { s with twin := { s.twin with tries := n, acked := s.twin.acked || acked } }
      if n < obj s (key 0xB000 4) then sendProbe s
      else if s.twin.acked && !s.dict.busOff then verdictDeath s
      else verdictSplit 3 none s

/-! ## What arrives over the twin port (R306, R307, R315) -/

/-- R383: a copy of a history that has no room for another entry loses its oldest discardable one. -/
def roomFor (l : List HistEntry) : List HistEntry := if histMax ≤ l.length then dropFirst (discardable l) l else l

/-- A history entry takes its place in the order of sequence numbers. -/
def insertSeq (e : HistEntry) (l : List HistEntry) : List HistEntry :=
  l.filter (fun x => decide (x.seq.toNat < e.seq.toNat)) ++ e :: l.filter (fun x => decide (e.seq.toNat < x.seq.toNat))

/-- A history entry of either twin, kept once. -/
def storeHist (e : HistEntry) (s : State) : State :=
  let mine := e.twin == s.boot.twinIdx
  let l := if mine then s.hist.own else s.hist.twin
  if l.any (fun x => x.seq == e.seq) then s
  else if mine then { s with hist := { s.hist with own := insertSeq e (roomFor s.hist.own), nextSeq := max s.hist.nextSeq (e.seq.toNat + 1) } }
  else { s with hist := { s.hist with twin := insertSeq e (roomFor s.hist.twin) } }

/-- R315: one package slot of a full mirror: a package whose digest differs is written and measured; a slot that is empty at the authority
is emptied (log 183). -/
def storeSlot (slot : Nat) (p : Option Package) (s : State) : State :=
  match p with
  | none => removePackage slot s
  | some p =>
    if s.tests.packages.any (fun e => e.1 == slot && e.2.digest == p.digest) then sendMeasured slot p s else writePackage slot p s

/-! ## TWIN_AUTH (R305, R318, log 97) -/

/-- The TWIN_AUTH writes of this twin that wait for the value complete. -/
def completeAuth (v : Nat) (s : State) : State :=
  let mine (w : Waiting) : Bool := w.key == authKey && w.value == v
  finishWaiting mine 0 (forEach (s.dict.waiting.filter mine) (fun _ s => extendPresence authKey v s) s)

/-- The shared writes of this twin that wait for a generation: the former authority passed them no further. -/
def acceptOwn (s : State) : State :=
  forEach (s.dict.waiting.filter (fun w => w.gen.isNone && w.key != authKey)) (fun w s =>
    if twinDrives s then acceptShared w.key w.value false s else holdShared w.key w.value s) s

/-- The croak windows from a grant to the move: silence is declared before they are over (R309). -/
def authWindows : Nat := 16

/-- The holder grants authority: it moves at the end of a croak window that both twins know, if the other agrees. -/
def startAuth (v : Nat) (s : State) : State :=
  let w := s.clock.time / 10000 + authWindows
  sendTwin (.auth 1 v w) { s with twin := { s.twin with authPending := some v, authAt := w, authSure := false } }

/-- The holder that is written grants authority, the other twin asks for the grant. -/
def beginAuth (v : Nat) (s : State) : State := if s.twin.auth then startAuth v s else sendTwin (.auth 0 v 0) s

/-- The TWIN_AUTH writes that arrived while the twin port drove nothing (R443) go on. -/
def resumeAuth (s : State) : State :=
  forEach (s.dict.waiting.filter (fun w => w.key == authKey)) (fun w s =>
    if (w.value == ownIdx s) == s.twin.auth then completeAuth w.value s
    else if s.twin.silent || s.twin.authPending == some w.value then s else beginAuth w.value s) s

/-- One message of a TWIN_AUTH write: asked, granted, agreed, confirmed. -/
def authStep (n v w : Nat) (s : State) : State :=
  let open_ := s.twin.authPending == some v && !authMoved s v
  if n == 0 then whenS (s.twin.auth && v != ownIdx s && !open_) s (startAuth v)
  else if n == 1 then whenS (!s.twin.auth && v == ownIdx s) s fun s =>
    sendTwin (.auth 2 v w) { s with twin := { s.twin with authPending := some v, authAt := w, authSure := false } }
  else if n == 2 then whenS (s.twin.auth && open_) s fun s =>
    sendTwin (.auth 3 v w) { s with twin := { s.twin with authSure := true } }
  else whenS (!s.twin.auth && open_) s fun s => { s with twin := { s.twin with authSure := true } }

/-- R305: at the end of the agreed window authority moves, at both twins at once; a write that the other has not agreed to is abandoned. -/
def endAuthWindow (s : State) : State :=
  match s.twin.authPending with
  | none => s
  | some v =>
    if authMoved s v || decide (s.clock.time / 10000 < s.twin.authAt) then s
    else if s.twin.authSure then
      let s := moveAuth v s
      completeAuth v (if s.twin.auth then acceptOwn s else s)
    else abandonAuth s

/-- CROAK_WINDOW_END (R309); a window in which the time base was loaded counts as neither (R445). A TWIN_AUTH write takes effect at
the end of its window (log 97). -/
def execCroakWindowEnd (s : State) : Host.Outcome State Fault Refusal :=
  guarded true s fun s =>
    whenS (controllerUp s && !s.faults.fatal) s fun s =>
      let t := s.twin
      let s := { s with twin := { s.twin with heard := false, heardSplit := false, skipWindow := false } }
      endAuthWindow (if t.skipWindow then s else if t.heard then heardWindow t.heardSplit s else missWindow s)

/-- The frame starts still to pass until a target frame (log 34). -/
def startsUntil (s : State) (target : Nat) : Nat := if framesRun s then target - s.plan.frame else 0

/-- One shared write the authority assigned: acknowledged, and the requester of an own one answered. -/
def assigned (gen k v target : Nat) (passedOn : Bool) (s : State) : State :=
  if k == key 0x9000 5 then clearHist v s
  else
    let s := if passedOn then
        { s with
          dict := { s.dict with waiting := modFirst (unassigned k) (fun w => { w with gen := some gen }) s.dict.waiting }
          tests := { s.tests with staging := if isInstall k v then none else s.tests.staging } }
      else s
    let s := enqueueShared { gen := gen, key := k, value := v, starts := startsUntil s target, passedOn := false }
      { s with twin := { s.twin with gen := gen } }
    finishWaiting (fun w => w.key == k && w.gen == some gen) 0 (sendTwin (.shareAck (BitVec.ofNat 16 gen)) s)

/-- A mirrored object; the epoch of an authority that acquired it later ends the follower's cold start. -/
def mirrored (k v : Nat) (s : State) : State :=
  if k == epochKey && s.boot.phase == .epochWait && !s.twin.auth then acquireEpoch v 1 s
  else { s with twin := { s.twin with mirrorIn := s.twin.mirrorIn.filter (fun e => e.1 != k) ++ [(k, v)] } }

/-- What an item does; authority moves only between paired twins (R305). -/
def takeMessage (m : TwinMsg) (s : State) : State :=
  match m with
  | .shareRequest k v => whenS s.twin.auth s (acceptShared k v true)
  | .shareAssigned g k v target own =>
    whenS (s.twin.role == .pairedFollower || k == key 0x9000 5) s (assigned g.toNat k v target own)
  | .auth n v w => whenS (s.twin.role == .pairedAuth || s.twin.role == .pairedFollower) s (authStep n.toNat v w)
  | .shareAck g => finishWaiting (fun w => w.gen == some g.toNat) 0 s
  | .history e => storeHist e s
  | .package k p => writePackage k.toNat p s
  | .mirrorSlot k p => storeSlot k.toNat p s
  | .staged l => { s with tests := { s.tests with fromFollower := some l } }
  | .mirrorItem k v => mirrored k v s
  | .measured k d => { s with tests := { s.tests with measuredTwin := tins s.tests.measuredTwin k.toNat d } }

/-- A warm start of this twin is in progress: what arrives waits until the twin port may drive again (R443). -/
def keepsMessages (s : State) : Bool := s.boot.warm && !twinDrives s

/-- TWIN_MESSAGE_RX. A silent twin takes no mirror traffic until its verdict. -/
def execTwinMessageRx (m : TwinMsg) (s : State) : Host.Outcome State Fault Refusal :=
  guarded true s fun s =>
    whenS (!s.faults.fatal && !s.twin.silent) s fun s =>
      if keepsMessages s then { s with twin := { s.twin with inbox := s.twin.inbox ++ [m] } }
      else whenS (controllerUp s) s (takeMessage m)

/-- What a warm start kept takes effect at its end, with the TWIN_AUTH writes that waited, and a rejoin whose mirror was complete takes
place. -/
def takeInbox (s : State) : State :=
  let l := s.twin.inbox
  let s := forEach l (fun m s => if s.twin.silent then s else takeMessage m s) { s with twin := { s.twin with inbox := [] } }
  let s := resumeAuth s
  if s.twin.mirrorDone && !s.twin.silent then rejoin s else s

/-- R305, R307, R392 step 8: the twin handshake settles authority. The authority of two twins that cold-start together sends the full
mirror; the follower's shared objects take what came. Writes that waited for the handshake go on (R306). -/
def handshake (theirs : Bool) (s : State) : State :=
  let mine := !theirs && !s.boot.twinIdx
  let s := setRole (if mine then .pairedAuth else .pairedFollower) (setAuth mine s)
  let s := if mine then sendMirror s else applyMirror (mirrorHist s)
  let s := beginEpoch theirs { s with twin := { s.twin with mirroring := false } }
  releaseHeld (flushHist { s with twin := { s.twin with mirrorIn := [] } })

/-- MIRROR_COMPLETE: at the twin handshake, or of a rejoin (R315), which learns the twin's identifier when it takes place (R424). -/
def execMirrorComplete (twinInstance : BitVec 12) (twinHasAuthority : Bool) (s : State) : Host.Outcome State Fault Refusal :=
  guarded true s fun s =>
    whenS (controllerUp s && !s.faults.fatal && !s.twin.silent) s fun s =>
      if s.boot.phase == .handshake then handshake twinHasAuthority (setObj (key 0x1010 2) twinInstance.toNat s)
      else if s.twin.role == .joining || s.twin.mirroring then
        let s := { s with twin := { s.twin with mirrorDone := true, mirrorInst := twinInstance.toNat } }
        if !twinDrives s || (framesRun s && s.twin.role != .sole) then s else rejoin s
      else s

end Sys2Proof.Machine
end

