-- ==== Sys2Proof/Machine/PlanMaster.lean ====
section
/-! DEFINITION. The plan master (09): loading, activation, pauses, frames, slots, completion records and the digest interval; yield
levels and records (14). -/

namespace Sys2Proof.Machine

def planKey (i : Nat) : Nat := key 0x2400 i

/-! ## Loading (R245, R237, R257) -/

/-- The configuration values a plan load reads (R113, R140, R169, R190, R248, R295). -/
def captureCfg (s : State) : PlanCfg :=
  { scaleWindow := obj s (key 0x4000 1), scaleHeadroom := obj s (key 0x4000 2), floorMant := obj s (key 0x4000 3)
    floorExp := sint 8 (obj s (key 0x4000 4)), breakEven := [6, 7, 8, 9, 0x13, 0x14].map (fun i => obj s (key 0x5000 i))
    flickMax := obj s (key 0x5100 1), flickMargin := obj s (key 0x5100 2), flickVerify := obj s (key 0x5100 3) == 1
    ethMode := (List.range (nPorts s.hw)).map (fun p => obj s (lk p 6)), testSlotMin := obj s (key 0x2410 1) }

/-- The staged image goes, with what waits for it. -/
def dropStaged (st : StageMode) (s : State) : State :=
  setObj (planKey 7) 0 { s with plan := { s.plan with
    stage := st, staged := none, switchPending := false, mode := if s.plan.mode == .armed then .none else s.plan.mode } }

/-- PLAN_CMD 0x01. A load replaces what is staged, and cancels an activation that waits for it (log 36). -/
def planLoadW (s : State) : State :=
  let s := dropStaged .loading s
  { s with plan := { s.plan with stagedCfg := captureCfg s } }

/-- A refused image: its code and location. -/
def refuseImage (code loc : Nat) (s : State) : State := setObj (planKey 4) code (setObj (planKey 5) loc (dropStaged .refused s))

/-- R257: a block of the image read uncorrectable. -/
def imageUnreadable (block : Nat) (s : State) : State :=
  let a := obj s (planKey 1) + 256 * block
  refuseImage 1 (locItem 0xFF block)
    (raise { source := 0x900, cls := .contained, access := 6, akind := 1, addr := BitVec.ofNat 48 a } (addCandidate a 4 s))

/-- R254, R257, Table 10.4: a refused block of the image is treated as one read uncorrectable: the load is refused. -/
def imageRefused (block : Nat) (v : AccessOut) (s : State) : State :=
  refuseImage 1 (locItem 0xFF block) (privRefused 0x900 (obj s (planKey 1) + 256 * block) v s)

/-- The blocks of an image that the plan master reads: the header, and, where the header holds, all its parts (log 143). -/
def imageReads (v : Nat) : Nat :=
  if imgAt v 0 4 == 0x4B4C4157 && imgAt v 4 2 == 1 && decide (imageLength v ≤ 2 ^ 26) then imageLength v / 256 else 1

/-- The first block of the image whose read is refused, with the outcome. -/
def firstRefused (s : State) (base n : Nat) : Option (Nat × AccessOut) :=
  ((List.range n).find? (fun k => !(privAccess s (base + 256 * k) true).isOk)).map (fun k => (k, privAccess s (base + 256 * k) true))

/-- What the reading of an image meets first: a refused block, an uncorrectable one, or neither. -/
def imageFail (s : State) (base n : Nat) (uncorrectable : Option Nat) : Option (State → State) :=
  match firstRefused s base n, uncorrectable with
  | some r, some b => some (if r.1 ≤ b then imageRefused r.1 r.2 else imageUnreadable b)
  | some r, none => some (imageRefused r.1 r.2)
  | none, some b => if b < n then some (imageUnreadable b) else none
  | none, none => none

/-- PLAN_LOAD_COMPLETE: the image was read; the checks of Table 9.10 stage or refuse it. -/
def execPlanLoadComplete (image : List Block) (uncorrectable : Option Nat) (s : State) : Host.Outcome State Fault Refusal :=
  guarded true s fun s =>
    whenS (s.plan.stage == .loading && !s.faults.fatal) s fun s =>
      let base := obj s (planKey 1)
      let v := imageNum image
      match imageFail s base (imageReads v) uncorrectable with
      | some f => f s
      | none =>
        let im := parseImage base v
        match loadFail s base v im with
        | some f => refuseImage f.1 f.2 s
        | none => setObj (planKey 7) im.planId { s with plan := { s.plan with stage := .staged, staged := some im } }

/-! ## The other commands (R245) -/

/-- The first frame instant FRAME_T0 + k × FRAME_LEN ÷ 3 ns at least 10 µs from now: k, and the instant in ns. -/
def firstInstant (s : State) (frameLen : Nat) : Nat × Nat :=
  let t0 := obj s (planKey 8)
  let k := if frameLen = 0 then 0 else ceilDiv (3 * (s.clock.time + 10000) - 3 * t0) frameLen
  (k, t0 + k * frameLen / 3)

/-- PLAN_CMD 0x02: a switch at the next frame start, or, with no plan running or paused, the first instant of the command is armed. -/
def planActivateW (s : State) : State :=
  match s.plan.staged with
  | none => s
  | some im =>
    if framesRun s then { s with plan := { s.plan with switchPending := true } }
    else
      let k := firstInstant s im.frameLen
      { s with plan := { s.plan with mode := .armed, armedFrame := k.1, armedAt := k.2 } }

/-- PLAN_CMD 0x03. -/
def planPauseW (s : State) : State :=
  if s.plan.mode == .running then { s with plan := { s.plan with pausePending := true } } else s

/-- PLAN_CMD 0x04. -/
def planDiscardW (s : State) : State := dropStaged .empty s

/-! ## Activation -/

/-- R345, Table 9.5: a tile descriptor names d as its far target: FAR is zero in a tile that has none, so descriptor 0 is named only
where a TOPEN opens the tile for a far target. -/
def farNames (im : Image) (d : Nat) : Bool :=
  im.tiles.zipIdx.any (fun t => tlFar t.1.toNat == d && (d != 0 || im.numbered.any (fun q => q.1.prog.any (fun w =>
    match decodeWalk (BitVec.ofNat 6 q.2) w with
    | some (.topen _ _ td m) => m == 2 && td.toNat == t.2
    | _ => false))))

/-- R345, Table 9.7: a transfer descriptor names a tensor in kinds 0x3 and 0x5. -/
def transferNames (im : Image) (d : Nat) : Bool :=
  im.transfers.any (fun t => (xdKind t.toNat == 3 || xdKind t.toNat == 5) && xdDesc t.toNat == d)

/-- R345: a pair of descriptors is valid for a plan. -/
def altValid (im : Image) (d d' : Nat) : Bool :=
  let a := (nth 0 im.tensors d).toNat
  let b := (nth 0 im.tensors d').toNat
  decide (d < im.tensors.length) && decide (d' < im.tensors.length) && tdKind a == 0 && tdKind b == 0
  && tdTenant a == tdTenant b && tdRgn a == tdRgn b
  && ((tdFormat a == 0x10 && tdFormat b == 0x11 && tdRot b) || (tdFormat a == 0x13 && tdFormat b == 0x14 && tdRot a == tdRot b))
  && decide (ceilDiv (tdLen a) 2 ≤ tdLen b)
  && !farNames im d && im.flicks.all (fun f => fdGdesc f.toNat != d && fdAdesc f.toNat != d) && !transferNames im d

/-- THERM_ALT: pair i. -/
def altPair (s : State) (i : Nat) : Nat × Nat := let v := obj s (key 0x2503 (i + 1)); (fld v 16 12, fld v 0 12)

/-- ALT_STATE for a plan. -/
def altMask (s : State) (im : Image) : Nat :=
  maskOf 16 (fun i => bitAt (obj s (key 0x2503 (i + 1))) 31 && altValid im (altPair s i).1 (altPair s i).2)

/-- R426: word w of TENANT_ACTIVE. -/
def tenantWord (im : Image) (w : Nat) : Nat :=
  maskOf 64 (fun b => im.seqs.any (fun q => q.slots.any (fun e => slotKind e.toNat == 0 && slotTenant e.toNat == 64 * w + b)))

def setTenants (f : Nat → Nat) (s : State) : State := forEach (List.range 4) (fun w s => setObj (key 0x3110 (w + 1)) (f w) s) s

/-- CLUSTER_MAP: 32 bytes, 0xFF unused. -/
def mapWord (m : List Nat) : Nat := ofBytes ((List.range 32).map (fun l => nth 0xFF m l))

/-- R363: clusters whose fence was lifted return. -/
def unfenceKept (s : State) : State :=
  { s with clusters := tmap .idle (fun c => if c.fenceKept then { c with fenced := false, fenceKept := false } else c) s.clusters }

/-- What a sequencer keeps beyond the slot in progress: operations still outstanding, SIGs that wait for them, records still due, and
the ceilings that run past the slot with the transfer of one (R228). -/
def Seq.switched (sq : Seq) : Seq :=
  { Seq.idle with
    ops := sq.ops, nextOp := sq.nextOp, firstOp := sq.nextOp, sigs := sq.sigs, ended := sq.ended, transfer := sq.transfer
    start := sq.start, stretched := sq.stretched, holdFr := sq.holdFr, holdLn := sq.holdLn, holdLk := sq.holdLk
    opFr := sq.opFr, opLn := sq.opLn, opLk := sq.opLk, testEnds := sq.testEnds }

/-- R243, R245: the staged image becomes the active one. -/
def activate (im : Image) (s : State) : State :=
  let s := unfenceKept s
  let map := (freeClusters s).take im.nclust
  let s := { s with
    plan := { s.plan with
      mode := .running, stage := .empty, active := some im, staged := none, switchPending := false, pausePending := false
      fencePause := false, yields := [], stretches := [], map := map, cfg := s.plan.stagedCfg, alts := (List.range 16).map (altPair s), altNow := 0 }
    seqs := tmap .idle (fun q => { q.switched with sigs := [] }) s.seqs }
  let s := setObj (planKey 6) im.planId (setObj (planKey 7) 0 (setObj (planKey 9) 0 (setObj (planKey 13) 0 s)))
  let s := setObj (planKey 10) im.digest.toNat (setObj (planKey 11) (noStretchMask im) (setObj (planKey 12) (mapWord map) s))
  let s := setTenants (tenantWord im) (setObj (key 0x2503 17) (altMask s im) s)
  extendMeas 3 4 im.planId im.digest s

/-- The switching instant: the checks marked A again, against the fences that stand; false where they fail. -/
def trySwitch (s : State) : Bool × State :=
  match s.plan.staged with
  | none => (false, s)
  | some im =>
    match activationFail s im with
    | some f => (false, refuseImage f.1 f.2 s)
    | none => (true, activate im s)

/-! ## Frames (R222, R231, R241, R244, R277, R343, R346, R347) -/

/-- R347: the yield record of a stream for the frame that ends. -/
def yieldRecord (s : State) (stream : Nat) (w : Withheld) : Nat :=
  put s.clock.time 64 64 + put stream 54 10 + put w.tenant 46 8 + put s.plan.frame 22 24 + put w.cls 20 2 + put w.cause 16 4
    + put w.stackBits 12 4 + put w.count 0 12

/-- R347: the stream has had a container withheld in the frame in progress. -/
def streamYielded (s : State) (stream : Nat) : Bool := (tget flagsDefault s.plan.streams stream).yielded

/-- R347: the slots of the frame that ends, in progress or with a record still due, keep whether their stream yielded in it. -/
def keepYields (q : Nat) (s : State) : State :=
  let st := curStream s q
  modSeq q (fun sq => { sq with
    yielded := sq.yielded || (sq.running && sq.inFrame && streamYielded s st), inFrame := false
    ended := sq.ended.map (fun e => { e with yielded := e.yielded || (e.inFrame && streamYielded s e.stream), inFrame := false }) }) s

/-- The end of a frame: yield records; a link loss from now on is no longer in one frame with an earlier epoch write (R303). -/
def endFrame (s : State) : State :=
  let s := forEach s.plan.withheld (fun e s =>
    notify 5 0x2504 1 (postRing (key 0x2504 1) (key 0x2505 1) (yieldRecord s e.1 e.2) s)) s
  let s := forEach (s.seqs.map (·.1)) keepYields s
  { s with
    ports := tmap .down (fun q => { q with epochResync := false }) s.ports
    plan := { s.plan with
      withheld := [], stretches := s.plan.stretchNow :: s.plan.stretches, yields := ((s.plan.streams.filter (fun e => e.2.yielded)).map (·.1)) :: s.plan.yields, streams := tmap flagsDefault (fun f => { f with yielded := false }) s.plan.streams } }

/-- R231: a WAITD that still waits is released with OVERRUN; one whose doorbell has reached its count waits no longer. The doorbells
clear. -/
def clearBells (s : State) : State :=
  let s := forEach (s.seqs.map (·.1)) (fun q s =>
    modSeq q (fun sq => { sq with waitBell := none }) (if bellOpen s (getSeq s q) then s else markOverrun q s)) s
  { s with plan := { s.plan with bells := [] } }

/-- R244, R316: the plan pauses, with the plan-paused notification. -/
def pauseNow (note : Bool) (s : State) : State :=
  let s := { s with plan := { s.plan with mode := .paused, pausePending := false, fencePause := false } }
  if note then notify 4 0x2400 3 s else s

/-- R245, R316, R244: the bank switch, the takeover and the pauses of a frame start. -/
def frameModes (s : State) : State :=
  let auto := match s.plan.staged with | some im => im.autoTwin | none => false
  let t := s.plan.takeover
  let s := { s with plan := { s.plan with takeover := false } }
  let sw := if s.plan.switchPending || (t && auto) then trySwitch s else (false, s)
  let s := { sw.2 with plan := { sw.2.plan with switchPending := false } }
  if t && !(sw.1 && auto) then pauseNow true s
  else if s.plan.fencePause && s.plan.mode == .running then pauseNow true s
  else if s.plan.pausePending && s.plan.mode == .running then pauseNow false s
  else s

/-- R343: every stack's level for the frame. -/
def sampleStacks (s : State) : State :=
  forEach (List.range (nStacks s.hw)) (fun k s =>
    let st := getStack s k
    setStack k { st with sampled := st.state, level := max (min st.state 1) (obj s (key 0x2501 (k + 1))) } s) s

/-- R346: the stacks of a tensor's region that raise its pair. -/
def regionWarm (s : State) (d : Nat) : Bool :=
  let e := regionEntry s (tdRgn (tensorOf s d))
  !rgDie e && (List.range (ilvStacks e)).any (fun i => 1 ≤ (getStack s (rgStk e + i)).level)

/-- R346: the pairs switched in this frame. -/
def switchPairs (s : State) : State :=
  let m := maskOf 16 (fun i => bitAt (obj s (key 0x2503 17)) i && regionWarm s (nth (0, 0) s.plan.alts i).1)
  bumpIf (m != 0) (key 0x2508 3) 1 { s with plan := { s.plan with altNow := m } }

/-- R241, R247: the logical clusters whose groups are stretched from this frame start on. -/
def stretchedNow (s : State) : List Nat :=
  (List.range s.plan.map.length).filter (fun l => let c := getCl s (nth 0 s.plan.map l); c.stretched && !c.fenced)

/-- R337: the watermarks take effect and the XOFF state of every queue is evaluated again; then the edges of the pins are counted. -/
def newWatermarks (s : State) : State :=
  let t := { s with fcHigh := obj s (key 0x2030 1), fcLow := obj s (key 0x2030 2) }
  let t := forEach (List.range (nClusters s.hw)) (fun c s => setQueue c { getQueue s c with xoff := xoffAfter s (getQueue s c) } s) t
  forEach (List.range (nFabric s.hw)) (fun k t => bumpIf (!pinXoff s k && pinXoff t k) (key 0x2031 (k + 1)) 1 t) t

/-- R277: how many containers of a channel the transfers in progress have still to claim; a CHORUS claims its inputs as they combine. -/
def claimsLeft (s : State) (ch : Nat) : Nat :=
  nsum ((linkSeqs s).map (fun q => match (getSeq s q).transfer with
    | some t =>
      if 2 ≤ t.kind && t.channel == ch && !t.dead then t.total - (if t.kind == 5 then (getPort s t.port).chPaired else t.done) else 0
    | none => 0))

/-- The containers of a receive buffer, in arrival order, that are claimed; `left` answers what each channel still claims. -/
def claimedOf (left : Nat → Nat) : List RxItem → List RxItem
  | [] => []
  | i :: r =>
    if left i.channel = 0 then claimedOf left r
    else i :: claimedOf (fun ch => if ch = i.channel then left ch - 1 else left ch) r

/-- R277: received containers that no transfer claims are dropped. -/
def dropUnclaimed (s : State) : State :=
  forEach (List.range (nPorts s.hw)) (fun p s =>
    let q := getPort s p
    let kept := claimedOf (claimsLeft s) q.buf
    let held (l : List RxItem) : Nat := (l.filter (fun i => !i.dropped)).length
    bump (lk p 21) (held q.buf - held kept) (setPort p { q with buf := kept } s)) s

/-- A frame of the active plan begins as frame k. -/
def beginFrame (k : Nat) (s : State) : State :=
  let s := switchPairs (sampleStacks (newWatermarks (remapRows false (dropUnclaimed s))))
  let s := { s with
    plan := { s.plan with frame := k, frameTick := s.clock.tick, stretchNow := stretchedNow s }
    faults := { s.faults with overran := [] } }
  let s := forEach (List.range 40) (fun i s => setObj (key 0x2020 (i + 1)) 0 s) s
  bump (planKey 9) 1 s

/-- The frame number of a switched plan's own grid at the frame start where the old plan's next frame would begin. -/
def nextFrame (s t : State) : Nat :=
  let l (x : State) : Nat := match x.plan.active with | some im => im.frameLen | none => 1
  if s.plan.active == t.plan.active then s.plan.frame + 1 else (s.plan.frame + 1) * l s / max 1 (l t)

/-- FRAME_START. -/
def execFrameStart (s : State) : Host.Outcome State Fault Refusal :=
  guarded true s fun s =>
    whenS (framesRun s && !s.faults.fatal) s fun s =>
      let s := countStarts (clearBells (endFrame s))
      let s := if s.twin.mirrorDone && !s.twin.silent then rejoin s else s
      let t := frameModes s
      settleLinks (beginFrame (nextFrame s t) t)

/-- ARMED_ACTIVATION: the armed instant begins frame k, or the A checks refuse the image. -/
def execArmedActivation (s : State) : Host.Outcome State Fault Refusal :=
  guarded true s fun s =>
    whenS (s.plan.mode == .armed && !s.faults.fatal) s fun s =>
      let k := s.plan.armedFrame
      let r := trySwitch { s with plan := { s.plan with mode := .none } }
      if r.1 then beginFrame k { r.2 with plan := { r.2.plan with bells := [], withheld := [] } } else r.2

/-! ## Slots (R238, R239, R241) -/

/-- R241: the logical clusters stretched in the frame `ago` frames before the one in progress. -/
def stretchedIn (s : State) (ago : Nat) : List Nat := if ago = 0 then s.plan.stretchNow else nth [] s.plan.stretches (ago - 1)

/-- The sequencer lies in the group of a cluster stretched in that frame. -/
def seqStretched (s : State) (q ago : Nat) : Bool :=
  match s.plan.active, planSeq s q with
  | some im, some l => (stretchedIn s ago).any (fun k => bitAt (nth 0 im.stretch k).toNat l)
  | _, _ => false

/-- R348: the stacks that have been WARM or CRITICAL at some time from tick `t` on. -/
def warmSince (s : State) (t : Nat) : Nat :=
  maskOf 4 (fun k => (getStack s k).state != 0 || (match (getStack s k).cooled with | some c => decide (t ≤ c) | none => false))

/-- A slot may begin: work while the plan runs outside test slots, a test entry, the plan master's own among them (R240), within one. -/
def slotMayStart (s : State) (q : Nat) (b : Nat) : Bool :=
  !s.faults.fatal && !seqFenced s q && !(getSeq s q).running && framesRun s
  && (if slotKind b == 1 then s.plan.testSlot else s.plan.mode == .running && !s.plan.testSlot)

/-- The START tick and LENGTH of a slot in the frame that began at `base`, `ago` frames before the one in progress (R238, R241). -/
def slotPlace (s : State) (im : Image) (q b base ago : Nat) : Nat × Nat :=
  let a := if seqStretched s q ago && slotKind b == 0 then stretchSlot im (slotStart b) (slotLength b) else (slotStart b, slotLength b)
  (base + a.1, a.2)

/-- R239: the tick at which the frame of the next slot after the one that ended began: the same frame for a later entry, else the one
after it. -/
def nextBase (im : Image) (sq : Seq) (slot : Nat) : Option Nat :=
  sq.frameOf.map (fun b => if sq.slot < slot then b else b + im.frameLen)

/-- How many frames before the one in progress the frame that began at `base` is. -/
def framesAgo (s : State) (im : Image) (base : Nat) : Nat := (s.plan.frameTick - base) / max 1 im.frameLen

/-- R239: a slot whose START tick the slot before it held up belongs to that START tick's frame, however far the program overran; any other
belongs to the frame in progress, or, where its START tick is still to come in it, to the one before. The answer: the tick the frame began
at and how many frames ago. -/
def slotFrame (s : State) (im : Image) (q slot b : Nat) : Nat × Nat :=
  let sq := getSeq s q
  let here := if (slotPlace s im q b s.plan.frameTick 0).1 ≤ s.clock.tick then (s.plan.frameTick, 0)
    else (s.plan.frameTick - im.frameLen, 1)
  match nextBase im sq slot with
  | some base =>
    let ago := framesAgo s im base
    if base ≤ s.plan.frameTick && decide ((slotPlace s im q b base ago).1 ≤ sq.freeAt) then (base, ago) else here
  | none => here

/-- R228: a ceiling that runs past its slot holds its unit in the next one: its end as a planned tick of the slot that begins at `start`. -/
def Seq.carry (sq : Seq) (start : Nat) (stretched : Bool) (u : WUnit) : Nat :=
  ({ Seq.idle with stretched := stretched } : Seq).unmapped (sq.start + sq.mapped (sq.hold u) - start)

/-- R239, R246: a slot begins after its own last tick: its program reports OVERRUN as well, and a slot with no program, which no program
passes (R324), is over. -/
def lateSlot (q last : Nat) (s : State) : State :=
  if s.clock.tick ≤ last then s
  else if slotEntry (slotBits s q) == 0x1FFF then endSlot q s
  else markOverrun q (raiseOverrun q (seqSource q) (opNow s q) s)

/-- SLOT_START (R239): index registers zero, loop stack empty (R232). -/
def execSlotStart (q : BitVec 6) (slot : BitVec 10) (s : State) : Host.Outcome State Fault Refusal :=
  guarded (seqExists s.hw q.toNat) s fun s =>
    let q := q.toNat
    match s.plan.active, seqImage s q with
    | some im, some si =>
      let b := (nth 0 si.slots slot.toNat).toNat
      whenS (decide (slot.toNat < si.slots.length) && slotMayStart s q b) s fun s =>
        let sq := getSeq s q
        let fr := slotFrame s im q slot.toNat b
        let st := seqStretched s q fr.2 && slotKind b == 0
        let at_ := slotPlace s im q b fr.1 fr.2
        lateSlot q (at_.1 + at_.2 - 1) (setSeq q { sq.switched with
          running := true, slot := slot.toNat, start := at_.1, length := at_.2, stretched := st, pc := slotEntry b
          holdFr := sq.carry at_.1 st .fr, holdLn := sq.carry at_.1 st .ln, holdLk := sq.carry at_.1 st .lk
          warm := warmSince s at_.1, frameOf := some fr.1, inFrame := fr.2 == 0
          yielded := decide (0 < fr.2) && (nth [] s.plan.yields (fr.2 - 1)).contains (slotStream b) } s)
    | _, _ => s

/-- SLOT_LAST_TICK (R239, R246): an overrun, or the end of a slot that has no program. -/
def execSlotLastTick (q : BitVec 6) (s : State) : Host.Outcome State Fault Refusal :=
  guarded (seqExists s.hw q.toNat) s fun s =>
    let q := q.toNat
    whenS ((getSeq s q).running && !s.faults.fatal) s fun s =>
      if slotEntry (slotBits s q) == 0x1FFF then endSlot q s else markOverrun q (raiseOverrun q (seqSource q) (opNow s q) s)

/-! ## Completion (R246, R259) -/

/-- The operation still waits for a write's acknowledgement: it is outstanding and is no read. -/
def writeOpen (s : State) (q op : Nat) : Bool :=
  let cl := getCl s q
  let r : OpRef := { q := q, op := op }
  !(cl.readWait.any (fun x => x.1.by_ == r) || cl.reads.any (fun x => x.by_ == r) || cl.arrived.any (fun x => x.req.by_ == r))

/-- The oldest of the sequencer's ended slots whose own writes are all acknowledged. -/
def recordDue (s : State) (q : Nat) : Option EndedSlot :=
  (getSeq s q).ended.find? (fun e =>
    !(getSeq s q).ops.any (fun o => decide (e.firstOp ≤ o.1) && decide (o.1 < e.upTo) && writeOpen s q o.1))

/-- Table 9.11. -/
def completionRecord (s : State) (e : EndedSlot) (n ringLog : Nat) : Nat :=
  let f := tget flagsDefault s.plan.streams e.stream
  put s.clock.time 64 64 + put e.stream 54 10 + put e.tenant 46 8 + put s.plan.frame 22 24 + put (b2n f.hazard) 6 1
    + put (b2n f.sat) 5 1 + put (b2n (e.yielded || (e.inFrame && f.yielded))) 4 1 + put (b2n e.overrun) 3 1
    + put (b2n f.poison) 2 1 + put (1 - n / 2 ^ ringLog % 2) 0 1

/-- R443: the pulse of IRQ_CPL_N lasts 8 REF_CLK cycles; records posted within one pulse share it. -/
def pulseCpl (s : State) : State :=
  if s.clock.tick < s.clock.cplEnd then s else { s with clock := { s.clock with cplEnd := s.clock.tick + 8 * ticksPerRef } }

/-- R246: the record's write, or its refusal: no record, no pulse, a region fault against 0x900 even for a retired page. -/
def writeRecord (addr rec_ : Nat) (s : State) : State :=
  match privAccess s addr false with
  | .ok _ w =>
    pulseCpl (emit (.completion (BitVec.ofNat 64 (w.toNat / 256 * 256)) (addr % 256) (BitVec.ofNat 128 rec_)) s)
  | v =>
    let s := match v with | .retired => bump (key 0x3070 2) 1 s | _ => bump (key 0x3070 1) 1 s
    raise { source := 0x900, cls := .contained, access := 4, akind := 1, addr := BitVec.ofNat 48 addr } s

/-- COMPLETION_RECORD. -/
def execCompletionRecord (q : BitVec 6) (s : State) : Host.Outcome State Fault Refusal :=
  guarded (seqExists s.hw q.toNat) s fun s =>
    let q := q.toNat
    match recordDue s q, s.plan.active with
    | some e, some im =>
      whenS (!s.faults.fatal) s fun s =>
        let n := obj s (planKey 13)
        let r := completionRecord s e n im.ringLog
        let poison := (tget flagsDefault s.plan.streams e.stream).poison
        let s := modSeq q (fun sq => { sq with ended := sq.ended.erase e }) s
        let s := bumpIf poison (key (0x3100 + e.tenant / 128) (e.tenant % 128 + 1)) 1 s
        let s := flagStream e.stream (fun f => { f with poison := false, sat := false, hazard := false }) s
        writeRecord (im.ring + 16 * (n % 2 ^ im.ringLog)) r (bump (planKey 13) 1 s)
    | _, _ => s

/-! ## Digests (R138) -/

/-- Slot d of the interval is published. DIGEST_TENSOR of a slot that no DMARK named in the interval keeps its earlier value: the spec does
not say what it becomes (log 144). -/
def publishDigest (d : Nat) (s : State) : State :=
  let cls := (List.range (nClusters s.hw)).map (getCl s)
  let sum := nsum (cls.map (fun c => tget 0 c.digest d)) % 2 ^ 64
  let missed := nsum (cls.map (fun c => tget 0 c.digestMissed d))
  let s := setObj (key 0xA110 (d + 1)) sum (setObj (key 0xA112 (d + 1)) (min missed (2 ^ 32 - 1)) s)
  match tget none s.plan.digestTensor d with
  | some t => setObj (key 0xA111 (d + 1)) t s
  | none => s

/-- DIGEST_INTERVAL_END: DIGEST_INTERVAL takes effect here (R140). -/
def execDigestIntervalEnd (s : State) : Host.Outcome State Fault Refusal :=
  guarded true s fun s =>
    whenS (s.plan.digestInterval ≤ s.plan.digestSteps && !s.faults.fatal) s fun s =>
      let s := forEach (List.range 64) publishDigest s
      let s := { s with
        clusters := tmap .idle (fun c => { c with digest := [], digestMissed := [] }) s.clusters
        plan := { s.plan with digestSteps := 0, digestTensor := [], digestInterval := obj s (key 0xA100 1) } }
      bump (key 0xA100 2) 1 s

end Sys2Proof.Machine
end

