-- ==== Sys2Proof/Machine/Pins.lean ====
section
/-! DEFINITION. Presence (R416), the time base's load frames and synchronisation (R444, R445), the thermal pins (R342), the
management port's bus-off and NOTIFY windows (R409, R413). -/

namespace Sys2Proof.Machine

/-! ## Presence (R416, Table 18.8) -/

def modPres (f : Presence → Presence) (s : State) : State := { s with pres := f s.pres }

/-- R417, R14: the window is open at this instant. -/
def presenceOpen (s : State) : Bool := s.pres.windowOpen && decide (s.clock.time < s.pres.windowEnd)

/-- PRESENCE_PIN_CHANGE: the filtered level changes. -/
def execPresencePinChange (low : Bool) (s : State) : Host.Outcome State Fault Refusal :=
  guarded true s fun s =>
    whenS (powered s) s (modPres fun p =>
      let p := { p with low := low }
      match p.st with
      | .armed => if low then { p with st := .qualifying } else p
      | .qualifying => if low then p else { p with st := if p.windowOpen then .opened else .armed, rearmed := false }
      | .opened => if low && p.rearmed then { p with st := .qualifying, rearmed := false } else p
      | .held => p)

/-- PRESENCE_QUALIFIED: 50 ms low without a break; a window of 120 s opens. -/
def execPresenceQualified (s : State) : Host.Outcome State Fault Refusal :=
  guarded true s fun s =>
    whenS (powered s && s.pres.st == .qualifying && s.pres.low) s fun s =>
      let s := modPres (fun p => { p with st := .opened, rearmed := false, windowOpen := true, windowEnd := s.clock.time + 120000000000 }) s
      notify 8 0x1200 1 (bump (key 0x1200 3) 1 s)

/-- PRESENCE_WINDOW_END. -/
def execPresenceWindowEnd (s : State) : Host.Outcome State Fault Refusal :=
  guarded true s fun s =>
    whenS (powered s && s.pres.windowOpen) s fun s =>
      notify 8 0x1200 1 (modPres (fun p =>
        let p := { p with windowOpen := false }
        match p.st with
        | .opened => if !p.low && p.rearmed then { p with st := .armed, rearmed := false } else { p with st := .held, rearmed := false }
        | _ => p) s)

/-- PRESENCE_REARM: the pin has been high for 1 s. -/
def execPresenceRearm (s : State) : Host.Outcome State Fault Refusal :=
  guarded true s fun s =>
    whenS (powered s && !s.pres.low) s (modPres fun p =>
      match p.st with
      | .opened => { p with rearmed := true }
      | .held => { p with st := .armed }
      | _ => p)

/-! ## The time base (R444, R445) -/

def srcTime : Nat := 0x90A

/-- The counter moves forward to `to_`, or holds for the difference. -/
def correctTime (to_ : Nat) (c : Clock) : Clock :=
  if c.time ≤ to_ then { c with time := to_ % 2 ^ 64, hold := 0 } else { c with hold := ceilDiv (c.time - to_) 10 }

/-- R445: an instant compared with the time base moves with a correction or load from `v` to `l`, for the duration behind it is counted
in REF_CLK cycles. -/
def moveInstants (v l : Nat) (s : State) : State := modPres (fun p => { p with windowEnd := p.windowEnd + l - v }) s

/-- TIME_LOAD_FRAME: bit i of the operand is the level in cycle i of Table 20.9. -/
def execTimeLoadFrame (bits : BitVec 67) (s : State) : Host.Outcome State Fault Refusal :=
  guarded true s fun s =>
    whenS (powered s && !bitAt bits.toNat 0) s fun s =>
      if popcount 65 (fld bits.toNat 1 65) % 2 == 0 && bitAt bits.toNat 66 then
        { s with clock := { s.clock with loaded := some (fld bits.toNat 1 64), fresh := true } }
      else raiseSimple srcTime .corrected 0 s

/-- A loaded value meets its edge (R445). -/
def applyLoad (l : Nat) (s : State) : State :=
  let v := s.clock.time
  let s := { s with clock := { s.clock with loaded := none } }
  if planExists s then
    if l ≤ v + 2000 && v ≤ l + 2000 then
      moveInstants v l (bump (key 0x2060 2) 1 { s with clock := correctTime l s.clock })
    else raiseSimple srcTime .corrected 8 s
  else
    moveInstants v l (bump (key 0x2060 2) 1 { s with
      clock := { s.clock with time := l % 2 ^ 64, hold := 0 }
      twin := { s.twin with skipWindow := true, missedRun := 0, validRun := 0 } })

/-- An edge with nothing loaded: the nearest multiple of 1,000,000 ns, the larger on a tie. -/
def syncEdge (s : State) : State :=
  let v := s.clock.time
  let m := (v + 500000) / 1000000 * 1000000
  if v ≤ m + 2000 && m ≤ v + 2000 then moveInstants v m (bump (key 0x2060 3) 1 { s with clock := correctTime m s.clock })
  else raiseSimple srcTime .corrected 8 s

/-- TIME_SYNC; a frame that completes in the cycle of the edge applies at the following one (R446). -/
def execTimeSync (s : State) : Host.Outcome State Fault Refusal :=
  guarded true s fun s =>
    whenS (powered s) s fun s => match s.clock.loaded with
      | some l => if s.clock.fresh then syncEdge s else applyLoad l s
      | none => syncEdge s

/-! ## Thermal pins (R342) -/

/-- The state that the filtered pins ask for. -/
def thermCondition (k : Stack) : Nat := if k.critLow then 2 else if k.warnLow then 1 else 0

/-- THERM_PIN_CHANGE: a state rises at once; R348 marks the slots in progress. A stack the configuration does not serve is ignored (R441). -/
def execThermPinChange (stack : BitVec 2) (crit low : Bool) (s : State) : Host.Outcome State Fault Refusal :=
  guarded true s fun s =>
    whenS (powered s && decide (stack.toNat < nStacks s.hw)) s fun s =>
      let k := getStack s stack.toNat
      let k := if crit then { k with critLow := low } else { k with warnLow := low }
      let k := { k with state := max k.state (thermCondition k) }
      let s := setStack stack.toNat k s
      if k.state == 0 then s
      else { s with seqs := tmap .idle (fun q => if q.running then { q with warm := q.warm ||| 2 ^ stack.toNat } else q) s.seqs }

/-- THERM_RELEASE: the state falls to what the pins ask for. -/
def execThermRelease (stack : BitVec 2) (s : State) : Host.Outcome State Fault Refusal :=
  guarded true s fun s =>
    whenS (powered s && decide (stack.toNat < nStacks s.hw)) s fun s =>
      let k := getStack s stack.toNat
      let now := min k.state (thermCondition k)
      setStack stack.toNat { k with state := now, cooled := if k.state != 0 && now == 0 then some s.clock.tick else k.cooled } s

/-! ## The management port (R409, R413) -/

/-- BUS_OFF: an unanswered probe makes the twin isolated (R311). -/
def execBusOff (s : State) : Host.Outcome State Fault Refusal :=
  guarded true s fun s =>
    whenS (powered s && !s.dict.busOff) s fun s =>
      let s := bump (key 0x2050 10) 1 { s with dict := { s.dict with busOff := true } }
      if s.twin.silent then verdictSplit 3 none s else s

/-- Held events of a code leave, when its window does not run and the mask selects it. -/
def releaseNote (code : Nat) (s : State) : State :=
  let w := tget .idle s.dict.notes code
  if w.held && !w.running && bitAt (obj s (key 0x2050 4)) code && !s.dict.busOff then sendNotify code w s else s

/-- BUS_OFF_RECOVERY. -/
def execBusOffRecovery (s : State) : Host.Outcome State Fault Refusal :=
  guarded true s fun s =>
    whenS (powered s && s.dict.busOff) s fun s =>
      forEach (List.range 16) releaseNote { s with dict := { s.dict with busOff := false } }

/-- NOTIFY_HOLDOFF_END: the 1 ms window of a code ends. -/
def execNotifyHoldoffEnd (code : BitVec 4) (s : State) : Host.Outcome State Fault Refusal :=
  guarded true s fun s =>
    let w := tget .idle s.dict.notes code.toNat
    whenS (powered s && w.running) s fun s =>
      releaseNote code.toNat { s with dict := { s.dict with notes := tset .idle s.dict.notes code.toNat { w with running := false } } }

end Sys2Proof.Machine
end

