-- ==== Sys2Proof/Machine/Start.lean ====
section
/-! DEFINITION. Cold start, warm start, attempts and boot-hold, moult (17), and power (R441, R442). -/

namespace Sys2Proof.Machine

/-! ## The identity block's slots (R391, R395, R403) -/

def slotOf (i : Ident) (b : Bool) : PatchSlot := if b then i.slotB else i.slotA
def setSlot (b : Bool) (f : PatchSlot → PatchSlot) (i : Ident) : Ident :=
  if b then { i with slotB := f i.slotB } else { i with slotA := f i.slotA }

/-- The slot in a state: false for A, true for B. -/
def slotIn (i : Ident) (st : Nat) : Option Bool := if i.slotA.state == st then some false else if i.slotB.state == st then some true else none

/-- The patch slot of a candidate. -/
def candSlot (i : Ident) : Candidate → Option Bool
  | .trial => slotIn i 2
  | .active => slotIn i 1
  | .previous => slotIn i 3
  | .rom => none

/-- R395: a slot's content matches its identity entry, and its header names this configuration and ROM. -/
def slotFits (s : State) (b : Bool) : Bool :=
  match slotImage s.boot.flash b with
  | some m => m.length == (slotOf s.boot.ident b).length && m.digest == (slotOf s.boot.ident b).digest
      && bitAt m.config (configBit s.hw) && m.romId == Config.romId.toNat
  | none => false

/-- R395: the slot is a candidate. -/
def candFits (s : State) (c : Candidate) : Bool :=
  match c, candSlot s.boot.ident c with
  | .rom, _ => true
  | .trial, some b => slotFits s b && !s.boot.ident.tried
  | _, some b => slotFits s b
  | _, none => false

/-- R395: the candidates of three attempts: the last is repeated where fewer are distinct. -/
def attemptList (s : State) : List Candidate :=
  let l := ([Candidate.trial, .active, .previous, .rom].filter (candFits s)).take 3
  l ++ List.replicate (3 - l.length) (l.getLastD .rom)

/-- R403: a trial that was tried and never confirmed becomes rejected. -/
def rejectTried (i : Ident) : Ident :=
  match slotIn i 2 with
  | some b => if i.tried then { setSlot b (fun p => { p with state := 4 }) i with tried := false } else i
  | none => i

/-! ## Attempts (R395, R396) -/

/-- The next attempt: the trial's tried flag set first, the image measured (register 1), the controller released. -/
def startAttempt (s : State) : State :=
  let c := nth .rom s.boot.cands s.boot.attempts
  let i := s.boot.ident
  let p := match candSlot i c with | some b => slotOf i b | none => .empty
  let s := if c == .trial then fixIdent (fun i => { i with tried := true }) s else s
  let s := extendMeas 1 2 p.imageId.toNat (if c == .rom then 0 else p.digest) s
  { s with boot := { s.boot with
      phase := .attempt, running := c, attempts := s.boot.attempts + 1, attemptFault := false
      runningSlot := match candSlot i c with | some b => (if b then 2 else 1) | none => 0 } }

/-- Three new attempts begin. -/
def beginAttempts (s : State) : State :=
  startAttempt { s with boot := { s.boot with cands := attemptList s, attempts := 0, failed := 0 } }

/-- R395, R403: the attempt fails: a trial image becomes rejected; the next attempt, or after three boot-hold. -/
def failAttempt (s : State) : State :=
  let s := if s.boot.running == .trial then
      match slotIn s.boot.ident 2 with
      | some b => fixIdent (fun i => { setSlot b (fun p => { p with state := 4 }) i with tried := false }) s
      | none => s
    else s
  let s := { s with boot := { s.boot with failed := s.boot.failed + 1 } }
  if 3 ≤ s.boot.attempts then { s with boot := { s.boot with phase := .bootHold } } else startAttempt s

/-- BOOT_ATTEMPT_TIMEOUT. -/
def execBootAttemptTimeout (s : State) : Host.Outcome State Fault Refusal :=
  guarded true s fun s => whenS (s.boot.phase == .attempt && !s.faults.fatal) s failAttempt

/-! ## Step 6: repairs, fences, lanes (R127, R366, R384) -/

/-- KEPT, as the history shows it: a lifted fence after the last contained fault of the source (R363). -/
def keptInHist (s : State) (k : Nat) : Bool :=
  s.hist.own.foldl (fun b e =>
    if rcSource e.record.toNat != k then b
    else if e.kind == 6 then true
    else if e.kind == 5 || (e.kind == 1 && fld e.record.toNat 98 2 == 2) then false
    else b) false

/-- One repair of the history is applied. -/
def applyRepair (e : HistEntry) (s : State) : State :=
  let r := e.record.toNat
  let src := rcSource r
  let bank := fld (rcSyndrome r) 8 8
  let row := fld (rcSyndrome r) 0 8
  if e.kind == 2 then
    let b := repairOf s src bank
    setRepair src bank { rows := tset 0 b.rows row (tget 0 b.rows row + 1), sparesUsed := b.sparesUsed + 1 } s
  else if e.kind == 4 then bankLost true src bank row s
  else s

/-- R385: a permanent entry counts unless it, or an entry of the pair it stands for, is voided: the one it names and the one it was appended
with (R384). -/
def permanentStands (l : List HistEntry) (e : HistEntry) : Bool :=
  e.kind == 9 && !voided l e && !l.any (fun x => (x.seq == e.ref || x.seq + 1 == e.seq) && voided l x)

/-- Table 15.8: the source has arrays with spare rows. -/
def hasSpareRows (k : Nat) : Bool := (rowUnit k).isSome || (laneOf k).isSome || (decide (0x700 ≤ k) && decide (k < 0x900))

/-- R384: what a permanent entry means at a cold start. A row that a later remap already serves is not failing again. -/
def applyPermanent (e : HistEntry) (s : State) : State :=
  let r := e.record.toNat
  let src := rcSource r
  if rcAccess r == 3 && hasSpareRows src then
    let done_ := s.hist.own.any (fun x => x.kind == 2 && rcSource x.record.toNat == src && rcSyndrome x.record.toNat == rcSyndrome r
      && decide (e.seq.toNat < x.seq.toNat))
    if done_ then s else addFailing src (fld (rcSyndrome r) 8 8) (fld (rcSyndrome r) 0 8) s
  else if (getSrc s src).kept || (getSrc s src).fenced then s
  else fenceSource src s

/-- R127: the lane map of a start, from the fences that stand. Where two lanes were lost before it the spare serves the lowest-numbered: the
spec names no order (log 148). -/
def mapLanes (s : State) (c : Nat) (cl : Cluster) : Cluster :=
  let m := maskOf 17 (fun l => (getSrc s (17 * c + l)).fenced)
  let lost := positions 16 (bitAt m)
  { cl with
    lanesFenced := m, remapLane := none, poisonLanes := []
    spareFor := if bitAt m 16 then none else match cl.spareFor with
      | some p => if lost.contains p then some p else lost.head?
      | none => lost.head?
    stretched := popcount 17 m == 2
    fenced := cl.fenced || decide (3 ≤ popcount 17 m) }

/-- Every cluster's lanes are mapped. -/
def mapAllLanes (s : State) : State := forEach (List.range (nClusters s.hw)) (fun c s => modCl c (mapLanes s c) s) s

/-- Step 6 of Table 17.2. -/
def deriveFromHistory (s : State) : State :=
  let srcs := (s.hist.own.filter (fun e => e.kind == 6)).map (fun e => rcSource e.record.toNat)
  let s := forEach srcs (fun k s => setSrc k { getSrc s k with kept := keptInHist s k } s) s
  let s := forEach s.hist.own applyRepair s
  let s := forEach (s.hist.own.filter (permanentStands s.hist.own)) applyPermanent s
  mapAllLanes (remapRows true s)

/-! ## The end of a warm start (R394, Table 17.3) -/

/-- Table 17.3: the sanity subset lasts 5 ms at most: 15,000,000 ticks (R221). -/
def sanityTicks : Nat := 15000000

/-- The warm start's last steps: the sanity subset (log 110), lanes mapped, queue rows remapped, the history entry, the links, register 4,
the notification; what paired twins held while the twin port was quiet, and what arrived then, goes on (R306, R315, R443). -/
def finishWarm (s : State) : State :=
  let s := histEntry 7 0 (eventRecord s 0 0 0) (mapAllLanes (remapRows true s))
  let s := { s with boot := { s.boot with phase := .ready, warmPending := none, sanityEnd := some (s.clock.tick + sanityTicks) } }
  let s := forEach (List.range (nPorts s.hw)) startResync s
  let s := notify 6 0xC000 7 (extendStart 2 s)
  takeInbox (if twinFlows s then releaseHeld (flushHist s) else s)

/-- R396: each failed attempt of a start that succeeds. -/
def reportAttempts (s : State) : State := forEach (List.range s.boot.failed) (fun _ => raiseSimple 0x903 .contained 0) s

/-- R392, steps 6 and 7: every installed package is measured, and takes part in the test slots of this start. -/
def beginTests (s : State) : State :=
  let s := deriveFromHistory { s with boot := { s.boot with phase := .tests } }
  forEach s.tests.packages (fun e s => extendMeas 2 3 e.2.id.toNat e.2.digest (putInForce e.1 e.2 s)) s

/-- R383: WARM_N that ended a cold start's boot-hold is in the history as a warm start. -/
def warmEntry (s : State) : State := if s.boot.heldFrom == .bootHold then histEntry 7 0 (eventRecord s 0 0 0) s else s

/-- CONTROLLER_READY: the attempt succeeds, unless a fatal fault was raised against 0x903 or 0x904 in it (R395); steps 6 and 7 of a cold
start follow, or the end of a warm start. -/
def execControllerReady (s : State) : Host.Outcome State Fault Refusal :=
  guarded true s fun s =>
    whenS (s.boot.phase == .attempt && !s.faults.fatal) s fun s =>
      if s.boot.attemptFault then failAttempt s
      else
        let s := reportAttempts s
        if s.boot.warm then finishWarm s else beginTests (warmEntry s)

/-- COLD_TEST_BUDGET_END: items in progress are aborted, the others deferred; the twin handshake follows, which a twin that a death verdict
has left SOLE does without (R316). -/
def execColdTestBudgetEnd (aborted : List (BitVec 12 × BitVec 4 × BitVec 32)) (deferred : List (BitVec 12)) (s : State) :
    Host.Outcome State Fault Refusal :=
  guarded true s fun s =>
    whenS (s.boot.phase == .tests) s fun s =>
      let s := forEach aborted (fun a => postVerdict a.1.toNat a.2.1.toNat a.2.2.toNat 2) s
      let d := (allSources s.hw).filter (fun k => deferred.any (fun u => u.toNat == k))
      let s := bump (key 0x8010 3) d.length { s with tests := { s.tests with deferred := d }, boot := { s.boot with phase := .handshake } }
      if s.twin.role == .sole then beginEpoch false s else setRole .joining { s with twin := { s.twin with missedRun := 0 } }

/-! ## Power (R392, R404, R442) -/

/-- What outlives the supplies: the flash, without the area that a write in progress was changing. -/
def flashKept (s : State) : Flash :=
  match s.boot.jobs.head? with
  | some (.patch b _ _) => setSlotImage b none s.boot.flash
  | some (.ident _ _) => spoilCopy s.boot.flash
  | _ => s.boot.flash

/-- The history and the packages that the flash holds. -/
def flashContent (s : State) : Hist × Tab Package :=
  match s.boot.flash.aside with
  | some c => c
  | none => (s.hist, match s.boot.jobs.head? with | some (.package k _) => tdel s.tests.packages k | _ => s.tests.packages)

/-- The state without supplies. -/
def powerOff (s : State) : State :=
  let c := flashContent s
  { State.reset with
    hw := s.hw
    boot := { State.reset.boot with flash := { flashKept s with aside := none } }
    hist := c.1
    tests := { State.reset.tests with packages := c.2 }
    out := s.out, freeIdx := s.freeIdx, pending := s.pending }

/-- POWER_FAIL: a filtered fall of PWR_OK; in the fatal state after 10 ms low (R370, Table 20.8). -/
def execPowerFail (s : State) : Host.Outcome State Fault Refusal :=
  guarded true s fun s => whenS (powered s) s powerOff

/-- R397. -/
def instanceOf (i : Ident) (nodeId : BitVec 7) : Nat := if i.idOverride == 0xFFFF then nodeId.toNat else i.idOverride.toNat % 4096

/-- R383: an entry whose CRC fails, of the own history or of the copy of the twin's (true), is ignored at every start, and counted. -/
def dropBadEntries (bad : Bool → BitVec 32 → Bool) (s : State) : State :=
  let own := s.hist.own.filter (fun e => bad false e.seq)
  let copy := s.hist.twin.filter (fun e => bad true e.seq)
  bump (key 0x9000 6) (own.length + copy.length) { s with hist := { s.hist with
    own := s.hist.own.filter (fun e => !bad false e.seq), twin := s.hist.twin.filter (fun e => !bad true e.seq) } }

/-- R390: an unusable flash keeps what it holds; the instance starts without it. -/
def setAside (s : State) : State :=
  { s with
    boot := { s.boot with flash := { s.boot.flash with aside := some (s.hist, s.tests.packages) } }
    hist := State.reset.hist
    tests := State.reset.tests }

/-- Steps 1 to 3: straps, the ROM measured, the flash and the identity block read (R390, R391, R397); EPOCH reads the last epoch (R428). -/
def coldBegin (nodeId : BitVec 7) (twinIdx flashReadable : Bool) (badEntries : List (Bool × BitVec 32)) (s : State) : State :=
  let s := powerOff s
  let g := governingCopy s.boot.flash
  let usable := flashReadable && g.isSome
  let ident := match g with | some c => if usable then rejectTried { c.content with bootCount := c.content.bootCount + 1 } else .empty | none => .empty
  let s := { (if usable then s else setAside s) with boot := { (if usable then s else setAside s).boot with
    phase := .attempt, nodeId := nodeId, twinIdx := twinIdx } }
  let s := fixIdent (fun _ => ident) (setObj (key 0xC000 10) (b2n usable) s)
  let s := setObj epochKey ident.lastEpoch.toNat s
  let s := setObj (key 0x1010 1) (b2n twinIdx) (setObj (key 0x1008 1) (instanceOf ident nodeId) (setObj (key 0x1008 2) ident.idOverride.toNat s))
  let s := extendMeas 0 1 0 Config.romDigest (dropBadEntries (fun twin q => badEntries.contains (twin, q)) s)
  if usable then s else raiseSimple 0x908 .contained 0 s

/-- COLD_START (R392), up to the first attempt. -/
def execColdStart (nodeId : BitVec 7) (twinIdx flashReadable : Bool) (badEntries : List (Bool × BitVec 32)) (s : State) :
    Host.Outcome State Fault Refusal :=
  guarded true s fun s =>
    whenS (s.boot.phase == .off) s fun s =>
      beginAttempts (coldBegin nodeId twinIdx flashReadable badEntries s)

/-! ## Warm start (R394) -/

/-- The plans are discarded; no sequencer runs. -/
def discardPlans (s : State) : State :=
  let s := { s with
    plan := { Plan.reset with digestSteps := s.plan.digestSteps, digestTensor := s.plan.digestTensor, digestInterval := s.plan.digestInterval }
    seqs := [] }
  let s := setTenants (fun _ => 0) (setObj (planKey 6) 0 (setObj (planKey 7) 0 s))
  setObj (key 0x2503 17) 0 (setObj (planKey 10) 0 (setObj (planKey 11) 0 (setObj (planKey 12) (2 ^ 256 - 1) s)))

/-- What a cluster's units hold that a quiesce ends. -/
def Cluster.quiesced (c : Cluster) : Cluster :=
  { c with lane := [], wrecs := [], arecs := [], key0 := .empty, key1 := .empty, tiles := [], updates := [], packQueue := [], flickPasses := []
           verify := [], readWait := [], reads := [], arrived := [], toPad := [], toWrite := [], writes := [] }

/-- R404: an install or FW_COMMIT in progress, which its entry in the identity block completes. -/
def committing (s : State) : Bool :=
  s.boot.jobs.any (fun j => match j with | .ident _ commit => commit | _ => true)

/-- A warm start may be asked for: ready, in boot-hold, or during a warm start's attempts (R394, R404). -/
def warmAllowed (s : State) : Bool :=
  !s.faults.fatal
  && match s.boot.phase with
     | .ready => true
     | .bootHold => true
     | .attempt => s.boot.warm
     | _ => false

/-- Steps 3 to 5 of Table 15.10, and no plan. `warm` records that the cold start had reached step 11. -/
def warmQuiesce (s : State) : State :=
  let from_ := s.boot.phase
  let s := discardPlans (quiesceUnits s)
  { s with
    clusters := tmap .idle Cluster.quiesced s.clusters
    queues := [], ord0 := { lanes := [] }, ord1 := { lanes := [] }
    tests := { s.tests with due := [], tested := [] }
    boot := { s.boot with phase := .quiesced, warm := from_ == .ready || s.boot.warm, heldFrom := from_, warmPending := none, sanityEnd := none } }

/-- WARM_QUIESCE: an install or FW_COMMIT in progress is completed first (R404). -/
def execWarmQuiesce (s : State) : Host.Outcome State Fault Refusal :=
  guarded true s fun s =>
    whenS (warmAllowed s) s fun s =>
      if committing s then { s with boot := { s.boot with warmPending := some false } } else warmQuiesce s

/-- Table 17.3: the slot to be run differs from the running image, or a trial is pending. -/
def mustRestart (s : State) : Bool :=
  let first := nth .rom (attemptList s) 0
  let slot := match candSlot s.boot.ident first with | some b => (if b then 2 else 1) | none => 0
  first == .trial || slot != s.boot.runningSlot

/-- R383: the history entries whose CRC fails at a warm start (log 163) are ignored and counted. -/
def dropFailed (s : State) : State :=
  dropBadEntries (fun twin q => Config.entryFails (s.freeIdx + b2n twin) q) { s with freeIdx := s.freeIdx + 2 }

/-- The start that WARM_N's release begins: the CAN rates take effect (R419). One that ends boot-hold or an attempt makes three new attempts (R396, R404), and goes on as the
cold start it was where that had not reached step 11 (log 37). -/
def warmStart (s : State) : State :=
  let s := dropFailed { s with dict := { s.dict with
    selectors := [], canNom := obj s (key 0x2050 1), canData := obj s (key 0x2050 2) } }
  let i := rejectTried s.boot.ident
  let s := if i == s.boot.ident then s else fixIdent (fun _ => i) s
  if s.boot.heldFrom != .ready || mustRestart s then beginAttempts s
  else finishWarm { s with boot := { s.boot with attempts := 0, failed := 0 } }

/-- WARM_START: WARM_N is released. -/
def execWarmStart (s : State) : Host.Outcome State Fault Refusal :=
  guarded true s fun s =>
    whenS (!s.faults.fatal) s fun s =>
      if s.boot.phase == .quiesced then warmStart s
      else if s.boot.warmPending.isSome then { s with boot := { s.boot with warmPending := some true } }
      else s

/-! ## The epoch at step 10 (R398) -/

/-- RESYNC_REQUEST_RX (R291): a cold start that waits for its epoch takes the partner's. -/
def execResyncRequestRx (p : BitVec 4) (f : Frame) (s : State) : Host.Outcome State Fault Refusal :=
  guarded (p.toNat < nPorts s.hw) s fun s =>
    let q := getPort s p.toNat
    let take := s.boot.phase == .epochWait && s.twin.auth && q.layerUp && !q.fenced && !s.faults.fatal && frameWhole f && fhType f == 2
    rxFrame p.toNat f (if take then acquireEpoch (fhEpoch f) 3 s else s)

/-- EPOCH_ACQ_TIMEOUT. -/
def execEpochAcqTimeout (s : State) : Host.Outcome State Fault Refusal :=
  guarded true s fun s =>
    whenS (s.boot.phase == .epochWait && s.twin.auth && !s.faults.fatal) s fun s => acquireEpoch s.boot.ident.lastEpoch.toNat 4 s

/-! ## Flash writes (R386, R391, R402) -/

/-- R402: the image stands in its slot as a trial not yet tried. -/
def recordTrial (b : Bool) (p : PatchSlot) (s : State) : State :=
  writeIdent true (fun i => { setSlot b (fun _ => { p with state := 2 }) i with tried := false }) s

/-- The oldest write ends. A write that failed leaves its area unreadable. -/
def flashDone (j : FlashJob) (ok : Bool) (s : State) : State :=
  match j with
  | .patch b p m =>
    let s := { s with boot := { s.boot with flash := setSlotImage b (if ok then some m else none) s.boot.flash } }
    if ok then recordTrial b p s else s
  | .package k p =>
    if ok then placePackage k p s
    else { s with tests := { s.tests with pending := tdel s.tests.pending k, refusal := 5 } }
  | .ident i _ => { s with boot := { s.boot with flash := (if ok then writeCopy i s.boot.flash else spoilCopy s.boot.flash) } }

/-- R404: WARM_N fell while what is now complete was in progress: the quiesce follows, and the start where it has been released. -/
def pendingWarm (s : State) : State :=
  match s.boot.warmPending with
  | none => s
  | some released =>
    if committing s || !warmAllowed s then s
    else
      let s := warmQuiesce s
      if released then warmStart s else s

/-- FLASH_WRITE_DONE: the oldest write in progress completes or fails. -/
def execFlashWriteDone (ok : Bool) (s : State) : Host.Outcome State Fault Refusal :=
  guarded true s fun s =>
    match s.boot.jobs with
    | [] => s
    | j :: r => pendingWarm (flashDone j ok { s with boot := { s.boot with jobs := r } })

/-! ## Moult (R402, R403) -/

/-- R402: the header check of a patch image: its refusal code, 0 where it passes (offsets: log 38). -/
def patchRefusal (s : State) (l : List Byte) : Nat :=
  if sub l 0 4 != 0x54504D46 || sub l 4 2 != 1 then 1
  else if sub l 6 1 / 8 != 0 || !bitAt (sub l 6 1) (configBit s.hw) then 2
  else if sub l 8 4 != Config.romId.toNat then 3
  else if 4194304 < sub l 12 4 || sub l 12 4 != l.length then 4
  else 0

/-- FW_LOAD's last segment. -/
def fwLoadW (l : List Byte) (s : State) : State :=
  let c := patchRefusal s l
  { s with boot := { s.boot with fwStaging := if c == 0 then some l else none, fwRefusal := c } }

/-- FW_COMMIT 0x01: the image goes to the slot that is not active. -/
def fwCommitTrialW (s : State) : State :=
  match s.boot.fwStaging with
  | none => s
  | some l =>
    let b := match slotIn s.boot.ident 1 with | some a => !a | none => false
    let p : PatchSlot := { state := 2, imageId := BitVec.ofNat 32 (sub l 16 4), length := l.length
                           digest := digestNum (sha384 (l.map BitVec.toNat)) }
    let m : PatchImage := { length := p.length, digest := p.digest, config := sub l 6 1, romId := sub l 8 4 }
    startJob (.patch b p m) { s with boot := { s.boot with fwStaging := none } }

/-- FW_COMMIT 0x02: active and previous exchange. -/
def fwCommitSwapW (s : State) : State :=
  writeIdent true (fun i =>
    match slotIn i 1, slotIn i 3 with
    | some a, some b => setSlot b (fun p => { p with state := 1 }) (setSlot a (fun p => { p with state := 3 }) i)
    | _, _ => i) s

/-- FW_CONFIRM: a running trial becomes active. -/
def fwConfirmW (s : State) : State :=
  match slotIn s.boot.ident 2 with
  | some b =>
    let s := changeIdent (fun i =>
      let i := match slotIn i 1 with | some a => setSlot a (fun p => { p with state := 3 }) i | none => i
      { setSlot b (fun p => { p with state := 1 }) i with tried := false }) s
    { s with boot := { s.boot with running := .active } }
  | none => s

/-- FW_STATE. -/
def fwStateWord (s : State) : Nat :=
  put s.boot.fwRefusal 12 4 + put s.boot.runningSlot 8 4 + put s.boot.ident.slotB.state 4 4 + put s.boot.ident.slotA.state 0 4

/-- START_STATE. -/
def startStateCode (s : State) : Nat :=
  match s.boot.phase with
  | .ready => 1
  | .bootHold => 2
  | .quiesced => 3
  | _ => 0

end Sys2Proof.Machine
end

