-- ==== Sys2Proof/Machine/DictRead.lean ====
section
/-! DEFINITION. Reading the dictionary: selectors (R431), the value of every readable object (19), snapshots (R411), and the rows
READ, WIN_READ_SEGMENT and NOTE_PEND_READ. -/

namespace Sys2Proof.Machine

/-! ## Selectors (R431) -/

/-- HIST_SEL, LOG_SEL and each SF_WIN_BASE. -/
def isSelector (k : Nat) : Bool :=
  k == key 0x9000 2 || k == key 0x1110 2 || (0x4100 ≤ k / 256 && k / 256 < 0x4120 && k % 256 == 1)

def selectorsOf (s : State) (r : Requester) : Tab Nat :=
  match s.dict.selectors.find? (fun e => e.1 == r) with
  | some e => e.2
  | none => []

/-- A requester's value of a selector. -/
def selector (s : State) (r : Requester) (k : Nat) : Nat := tget 0 (selectorsOf s r) k

def setSelector (r : Requester) (k v : Nat) (s : State) : State :=
  { s with dict := { s.dict with
      selectors := (r, tset 0 (selectorsOf s r) k v) :: s.dict.selectors.filter (fun e => e.1 != r) } }

/-! ## Objects the block computes -/

/-- VENDOR: "Brodado Semiconductor". -/
def vendorBytes : List Nat :=
  [0x42, 0x72, 0x6F, 0x64, 0x61, 0x64, 0x6F, 0x20, 0x53, 0x65, 0x6D, 0x69, 0x63, 0x6F, 0x6E, 0x64, 0x75, 0x63, 0x74, 0x6F, 0x72]

/-- PRODUCT: "Itoth Trinyx T32", "Itoth Trinyx T16" or "Itoth Trinyx T8". -/
def productBytes (hw : Hw) : List Nat :=
  [0x49, 0x74, 0x6F, 0x74, 0x68, 0x20, 0x54, 0x72, 0x69, 0x6E, 0x79, 0x78, 0x20, 0x54]
  ++ match hw.variant with | .t8 => [0x38] | .t16 => [0x31, 0x36] | .t32 => [0x33, 0x32]

/-- Tables 19.3 and 17.7: the identity area. -/
def readIdentity (s : State) (j : Nat) : Nat :=
  match j with
  | 1 => put 0x7D31 16 16 + put (match s.hw.variant with | .t8 => 0x08 | .t16 => 0x10 | .t32 => 0x20) 8 8 + Config.partRevision.toNat
  | 2 => Config.romId.toNat
  | 3 => ofBytes vendorBytes
  | 4 => ofBytes (productBytes s.hw)
  | _ => s.boot.nodeId.toNat

/-- Table 19.4. -/
def readSizes (hw : Hw) (j : Nat) : Nat :=
  match j with
  | 1 => nClusters hw
  | 2 => 16 * nClusters hw
  | 3 => nClusters hw
  | 4 => 4096 * nClusters hw
  | 5 => nPorts hw
  | 6 => nIslands hw
  | 7 => 64
  | 8 => 1024
  | 9 => 256
  | 10 => 2 ^ nFabric hw - 1
  | _ => nClusters hw + nPorts hw + 1

/-- Tables 1.7, 8.9, 11.13, 13.7: the integration values. -/
def readIntegration (hw : Hw) (j : Nat) : Nat :=
  match j with
  | 1 => hw.fabricRdLat.toNat
  | 2 => hw.fabricWrLat.toNat
  | 3 => hw.spadRmwLat.toNat
  | 4 => hw.linkRate.toNat
  | 5 => hw.stackRate.toNat
  | 6 => nStacks hw
  | 7 => hw.arrayRetLat.toNat
  | 8 => hw.linkLat.toNat
  | _ => hw.fcSkid.toNat

/-- PRES_STATE (Table 18.8). -/
def presCode : PresState → Nat
  | .armed => 0
  | .qualifying => 1
  | .opened => 2
  | .held => 3

/-- PRES_REMAIN: whole ms left in the open window. -/
def presRemain (s : State) : Nat := if presenceOpen s then (s.pres.windowEnd - s.clock.time) / 1000000 else 0

/-- HIST_ENTRY: the entry that HIST_SEL names; zero bytes if not held. -/
def readHistEntry (s : State) (sel : Nat) : Nat :=
  match (s.hist.own ++ s.hist.twin).find? (fun e => e.twin == bitAt sel 31 && e.seq.toNat == fld sel 0 31) with
  | some e => histEntryWord e
  | none => 0

/-- TC_STATE: 3 installing, 1 loading, 2 staged; the last refusal code. -/
def tcStateWord (s : State) : Nat :=
  16 * s.tests.refusal
  + (if !s.tests.pending.isEmpty then 3
     else if s.dict.opens.any (fun o => o.key == key 0x8000 2) then 1
     else if s.tests.staging.isSome then 2 else 0)

/-- The package in a slot. -/
def packageAt (s : State) (i : Nat) : Option Package := (s.tests.packages.find? (fun e => e.1 == i)).map (·.2)

/-- The ROM responder serves the management port (R393): also while WARM_N, which fell in an attempt or in boot-hold, is low. -/
def romServes (s : State) : Bool :=
  s.boot.phase == .attempt || s.boot.phase == .bootHold || (s.boot.phase == .quiesced && s.boot.heldFrom != .ready)

/-- Boot-hold, which WARM_N low does not end before its release (R394, R396). -/
def inBootHold (s : State) : Bool := s.boot.phase == .bootHold || (s.boot.phase == .quiesced && s.boot.heldFrom == .bootHold)

/-- TWIN_STATE: JOINING while the ROM responder serves; bit 7 in boot-hold or fatal. -/
def twinStateWord (s : State) : Nat :=
  (if romServes s then 5 else roleCode s.twin.role) + 128 * b2n (inBootHold s || s.faults.fatal)

/-- The value of a readable object at this instant, for a requester. -/
def readObj (r : Requester) (s : State) (k : Nat) : Nat :=
  let j := k % 256
  match k / 256 with
  | 0x1000 => readIdentity s j
  | 0x1110 =>
    match j with
    | 1 => s.boot.log.length
    | 2 => selector s r k
    | _ => (nth 0 s.boot.log (selector s r (key 0x1110 2))).toNat
  | 0x1200 => match j with | 1 => presCode s.pres.st | 2 => presRemain s | _ => obj s k
  | 0x2000 => readSizes s.hw j
  | 0x2001 => readIntegration s.hw j
  | 0x2010 => laneStateWord (getCl s (j - 1))
  | 0x2011 => (getCl s (j - 1)).padBanksFenced
  | 0x2060 => if j = 1 then s.clock.time else obj s k
  | 0x2400 => if j = 3 then planStateWord s.plan else obj s k
  | 0x2411 => seqStateWord s (j - 1)
  | 0x2500 => (getStack s (j - 1)).state + 16 * (getStack s (j - 1)).level
  | 0x3080 => retCount s
  | 0x7000 => if j = 1 then faultSummaryWord s else obj s k
  | 0x8000 => match j with | 1 => s.tests.packages.length | 5 => tcStateWord s | _ => obj s k
  | 0x8001 => match packageAt s (j - 1) with | some p => p.id.toNat | none => 0
  | 0x8002 => match packageAt s (j - 1) with | some p => p.digest.toNat | none => 0
  | 0x8010 => if j = 5 then watchCount s else obj s k
  | 0x9000 =>
    match j with
    | 1 => s.hist.own.length
    | 2 => selector s r k
    | 3 => readHistEntry s (selector s r (key 0x9000 2))
    | 8 => (permanents s).length
    | _ => obj s k
  | 0xB000 => match j with | 1 => twinStateWord s | 6 => (twinNode s).toNat | _ => obj s k
  | 0xC000 =>
    match j with
    | 4 => fwStateWord s
    | 5 => s.boot.ident.slotA.imageId.toNat
    | 6 => s.boot.ident.slotB.imageId.toNat
    | 7 => startStateCode s
    | 8 => s.boot.attempts
    | _ => obj s k
  | i =>
    if 0x4100 ≤ i && i < 0x4120 then
      if j = 1 then selector s r k
      else (tget .cleared (getCl s (i - 0x4100)).scale (selector s r (key i 1) + (j - 2))).val.toNat
    else if 0x6000 ≤ i && i < 0x6010 && j = 1 then (getPort s (i - 0x6000)).st
    else if 0x7020 ≤ i && i ≤ 0x7035 then srcStateWord (getSrc s (srcOfKey k))
    else obj s k

/-! ## Snapshots (R411, R430) -/

def snapOf (s : State) (r : Requester) : Option Snapshot := (s.dict.snaps.find? (fun e => e.1 == r)).map (·.2)

def dropSnap (r : Requester) (s : State) : State :=
  { s with dict := { s.dict with snaps := s.dict.snaps.filter (fun e => e.1 != r) } }

/-- The whole value is captured at one instant; an RC object is cleared in the same operation (Table 18.2). -/
def capture (r : Requester) (k : Nat) (s : State) : State :=
  match findFam s.hw k with
  | none => s
  | some f =>
    let n : Snapshot := { key := k, bytes := toBytes f.len (readObj r s k) }
    let s := { dropSnap r s with dict := { (dropSnap r s).dict with snaps := (r, n) :: (dropSnap r s).dict.snaps } }
    if f.acc == .rc then setObj k 0 s else s

/-- R393: the identity objects, the measurement objects and TWIN_STATE. -/
def romReadable (s : State) (k : Nat) : Bool :=
  ([0x1000, 0x1008, 0x1010, 0x1100, 0x1110].contains (k / 256) || k == key 0xB000 1) && objExists s.hw k

/-- Checks 4 and 5 of Table 18.3 for a read; 0 where both pass. The ROM responder answers Renavasin reads only (R393). -/
def readCheck (r : Requester) (s : State) (k : Nat) : Nat :=
  if romServes s then (if romReadable s k && r matches .can _ then 0 else errBusy)
  else match findFam s.hw k with
    | none => errAbsent
    | some f => if f.acc == .wo then errAccess else 0

/-- A read at an offset: its code, and the state with the snapshot it is answered from. -/
def takeRead (r : Requester) (k off : Nat) (s : State) : Nat × State :=
  let c := readCheck r s k
  if c != 0 then (c, s)
  else if off == 0 then (0, capture r k s)
  else match snapOf s r with
    | some n => if n.key == k && off ≤ n.bytes.length then (0, s) else (errLength, s)
    | none => (errLength, s)

/-- Type code, total length and at most `seg` bytes from the offset. -/
def readSegment (s : State) (r : Requester) (k off seg : Nat) : Nat × Nat × List Byte :=
  let bytes := match snapOf s r with | some n => n.bytes | none => []
  let ty := match findFam s.hw k with | some f => f.ty.code | none => 0
  (ty, bytes.length, ((bytes.drop off).take seg).map (BitVec.ofNat 8))

/-- R365: a read of the collector's records, counters or source states votes its three copies. -/
def collectorRead (k : Nat) (v : Vote) (s : State) : State :=
  if 0x7000 ≤ k / 256 && k / 256 ≤ 0x7035 && objExists s.hw k then votes v s else s

/-- A read that passes the checks of Table 18.3; only the capture at offset 0 reads the collector. -/
def votedRead (r : Requester) (k off : Nat) (v : Vote) (s : State) : Nat × State :=
  let t := takeRead r k off s
  if t.1 != 0 || off != 0 then t else takeRead r k off (collectorRead k v s)

/-! ## Requests (R408, R410) -/

/-- Check 2 of Table 18.3: a residue mismatch on what the dictionary path carries, which raises a contained fault against 0x904, or a request
whose packet was bad at its island (R333, log 156); the ROM responder makes no checks. -/
def residueCheck (s : State) : Bool × State :=
  if s.dict.packetBad && !romServes s then (false, { s with dict := { s.dict with packetBad := false } })
  else match s.dict.residueBad with
  | some syn =>
    if romServes s then (true, s)
    else (false, raise { source := 0x904, cls := .contained, access := 2, syndrome := syn }
      { s with dict := { s.dict with residueBad := none } })
  | none => (true, s)

/-- R410: shorter than its layout, longer than a CAN FD frame, or of a service that is never sent. -/
def frameMalformed (m : CanReq) (n : Nat) : Bool := decide (m.payload.length < n) || decide (64 < m.payload.length) || m.service.isSome

/-- READ_REPLY. -/
def replyRead (m : CanReq) (k off : Nat) (s : State) : State :=
  let g := readSegment s (.can m.src) k off 52
  sendReply m 3 (objHead k ++ bytesOf 1 g.1 ++ bytesOf 4 g.2.1 ++ bytesOf 4 off ++ g.2.2) s

/-- The code of a request that is not well formed; the ROM responder refuses whatever it does not answer as busy (R393). -/
def malformedCode (s : State) : Nat := if romServes s then errBusy else errMalformed

/-- A READ served. -/
def serveRead (m : CanReq) (s : State) : State :=
  let k := reqKey m
  let off := payNum m.payload 4 4
  if frameMalformed m 8 || payByte m.payload 3 != 0 then replyError m k (malformedCode s) off s
  else
    let c := residueCheck s
    if !c.1 then replyError m k errInternal off c.2
    else
      let t := votedRead (.can m.src) k off m.vote c.2
      if t.1 == 0 then replyRead m k off t.2 else replyError m k t.1 off t.2

/-! ## The register window (R415) -/

/-- The object WIN_SEL names. -/
def selKey (sel : BitVec 32) : Nat := sel.toNat / 256

/-- R422: the type code of an object; 0 where it does not exist (log 153). -/
def typeCode (s : State) (k : Nat) : Nat := match findFam s.hw k with | some f => f.ty.code | none => 0

/-- A command of channel k begins: the registers it set, TYPE the object's. -/
def beginWin (k : Bool) (sel off len : Nat) (s : State) : State :=
  bump (key 0x2050 7) 1 (modWin k (fun w => { w with
    sel := BitVec.ofNat 32 sel, off := BitVec.ofNat 32 off, len := BitVec.ofNat 32 len, error := 0, busy := true
    type := typeCode s (selKey (BitVec.ofNat 32 sel)) }) s)

/-- WIN_SEL or WIN_OFF is not of the form of Table 18.6. -/
def winMalformed (sel off : BitVec 32) : Bool := sel.toNat % 256 != 0 || off.toNat % 64 != 0

/-- The segment fills WIN_DATA. -/
def fillWin (k : Bool) (key_ off : Nat) (s : State) : State :=
  let g := readSegment s (.win k) key_ off 64
  winDone k 0 (modWin k (fun w => { w with
    type := g.1, total := g.2.1, valid := g.2.2.length, data := g.2.2 ++ w.data.drop g.2.2.length }) s)

/-- A read that fills nothing. -/
def winReadFails (k : Bool) (code : Nat) (s : State) : State := winDone k code (modWin k (fun w => { w with valid := 0 }) s)

/-- A read segment of channel k. -/
def serveWinRead (k : Bool) (sel off : BitVec 32) (v : Vote) (s : State) : State :=
  if winMalformed sel off then winReadFails k (malformedCode s) s
  else
    let c := residueCheck s
    if !c.1 then winReadFails k errInternal c.2
    else
      let t := votedRead (.win k) (selKey sel) off.toNat v c.2
      if t.1 == 0 then fillWin k (selKey sel) off.toNat t.2 else winReadFails k t.1 t.2

/-- Table 18.7: WIN_STAT. -/
def winStat (w : WinChannel) : Nat := put (b2n w.busy) 31 1 + put w.error 16 8 + put w.type 8 8 + put w.valid 0 8

/-- Table 18.6: what a read of the channel's register at an offset returns; WIN_CMD is write-only. NOTE_PEND_W has a row of its own. -/
def winRegister (s : State) (k : Bool) (off : Nat) : Nat :=
  let w := getWin s k
  match off with
  | 0x00 => w.sel.toNat
  | 0x04 => w.off.toNat
  | 0x08 => w.len.toNat
  | 0x10 => winStat w
  | 0x14 => w.total
  | 0x18 => obj s (key 0x2050 5)
  | _ => if 0x40 ≤ off && off < 0x80 then payNum w.data (off - 0x40) 4 else 0

/-! ## NOTE_PEND (R413, R415) -/

/-- SNAPSHOT_EXPIRY (R411). -/
def execSnapshotExpiry (r : Requester) (s : State) : Host.Outcome State Fault Refusal := guarded true s (dropSnap r)

/-- REPLY_RETENTION_EXPIRY (R412). -/
def execReplyRetentionExpiry (node : BitVec 7) (s : State) : Host.Outcome State Fault Refusal :=
  guarded true s fun s => { s with dict := { s.dict with kept := tdel s.dict.kept node.toNat } }

end Sys2Proof.Machine
end

