-- ==== Sys2Proof/Machine/DictWrite.lean ====
section
/-! DEFINITION. Writing the dictionary: the ranges and busy rules of every writable object, what each write does, and the one path
of Table 18.3 that serves a write of either requester, whole or in segments (R407 to R411, R417). -/

namespace Sys2Proof.Machine

/-! ## Ranges (check 9) -/

/-- Tables 4.5, 5.5, 7.5 and R336, R248, R350, R419, R425: the configuration objects of one twin. -/
def configInRange (s : State) (k v : Nat) : Bool :=
  match k / 256, k % 256 with
  | 0x2030, 1 => obj s (key 0x2030 2) < v && v + s.hw.fcSkid.toNat ≤ 62
  | 0x2030, _ => v < obj s (key 0x2030 1) && obj s (key 0x2030 1) + s.hw.fcSkid.toNat ≤ 62
  | 0x2050, 1 => [125, 250, 500, 1000].contains v
  | 0x2050, 2 => [0, 1000, 2000, 4000, 5000, 8000].contains v
  | 0x2070, _ => v ≤ 7
  | 0x2400, 1 => v % 256 == 0
  | 0x2410, _ => 30000 ≤ v && v ≤ 3000000 && v % 15 == 0
  | 0x2501, _ => v ≤ 2
  | 0x2502, _ => 10 ≤ v && v ≤ 10000
  | 0x2503, _ => fld v 28 3 == 0 && fld v 12 4 == 0
  | 0x4000, 1 => 1 ≤ v && v ≤ 16
  | 0x4000, 2 => 64 ≤ v
  | 0x4000, 3 => 128 ≤ v
  | 0x4000, _ => decide (-32 ≤ sint 8 v) && decide (sint 8 v ≤ 31)
  | 0x5100, 1 => v ≤ 2
  | 0x5100, 3 => v ≤ 1
  | 0x6100, 5 => 10 ≤ v && v ≤ 60000
  | 0x7200, 4 => v < 2 ^ 13
  | 0x7200, 5 => v < 2 ^ 13
  | 0x8000, 4 => v ≤ 7
  | 0x8010, 2 => 10 ≤ v
  | 0xA100, _ => 1 ≤ v
  | 0xB000, 3 => 500 ≤ v && v ≤ 20000
  | 0xB000, 4 => 1 ≤ v && v ≤ 8
  | 0xC000, 9 => 100 ≤ v && v ≤ 10000
  | _, _ => true

/-- A source identifier that exists, in a value of no further bits. -/
def isSource (s : State) (v : Nat) : Bool := v < 4096 && srcExists s.hw v

/-- The plan master takes no command: a load is in progress (R245), or the start has not reached step 11 (R392; log 154). -/
def planBusy (s : State) : Bool := s.plan.stage == .loading || s.boot.phase != .ready

/-- R245: a command the plan master can obey; of one that finds it busy only the code is asked. -/
def planCmdOk (s : State) (v : Nat) : Bool :=
  v == 1 || (v == 2 && (planBusy s || s.plan.staged.isSome)) || (v == 3 && (planBusy s || framesRun s)) || v == 4

/-- R364: a source, class corrected or contained, an access type of Table 15.3, unassigned bits zero. -/
def forceOk (s : State) (v : Nat) : Bool :=
  srcExists s.hw (fld v 0 12) && (fld v 12 2 == 1 || fld v 12 2 == 2) && fld v 14 2 == 0 && fld v 16 4 ≤ 0xC && v < 2 ^ 20

/-- R380: WATCH_SET. -/
def watchOk (s : State) (v : Nat) : Bool :=
  if bitAt v 15 then fld v 5 10 == 0 && fld v 0 5 < nClusters s.hw else isSource s v

/-- R402: an image to commit, or two slots to swap. -/
def fwCommitOk (s : State) (v : Nat) : Bool :=
  (v == 1 && s.boot.fwStaging.isSome) || (v == 2 && (slotIn s.boot.ident 1).isSome && (slotIn s.boot.ident 3).isSome)

/-- The commands, selectors, entries and presence-qualified objects. -/
def commandInRange (s : State) (k v : Nat) : Bool :=
  match k / 256, k % 256 with
  | 0x1008, _ => v == 0xFFFF || v % 2 == b2n s.boot.twinIdx
  | 0x1101, _ => v % 256 == 6 || v % 256 == 7
  | 0x2400, 2 => planCmdOk s v
  | 0x6100, 1 => v < 4096 && 1 ≤ (v + 4096 - epochOf s % 4096) % 4096 && (v + 4096 - epochOf s % 4096) % 4096 ≤ 2047
  | 0x6100, 3 => v < 4096 && !bitAt (obj s k) 15
  | 0x7100, 1 => forceOk s v
  | 0x7100, _ => isSource s v
  | 0x7200, 1 => v ≤ 3
  | 0x7200, 2 => v < 2 ^ 14 && srcExists s.hw (fld v 0 12)
  | 0x7200, 3 => v ≤ 3
  | 0x7300, _ => isSource s v && (getSrc s v).fenced
  | 0x8000, 3 => (v == 1 && s.tests.staging.isSome) || v == 2 || v == 3
  | 0x8010, 4 => watchOk s v
  | 0x9000, 4 => s.hist.own.any (fun e => e.seq.toNat == v)
  | 0x9000, 5 => 1 ≤ v && v ≤ 3
  | 0xB000, 2 => v ≤ 1 && (s.twin.role == .pairedAuth || s.twin.role == .pairedFollower)
  | 0xC000, 2 => fwCommitOk s v
  | 0xC000, 3 => v == 1 && s.boot.running == .trial
  | i, j =>
    if 0x3000 ≤ i && i < 0x3040 then !rgValid v || regionWritable s (i - 0x3000) v
    else if 0x3081 ≤ i && i ≤ 0x3084 then fld v 36 27 == 0
    else if 0x4100 ≤ i && i < 0x4120 then
      if j = 1 then v % 128 == 0 && v ≤ 1920 else v == 0 || 128 ≤ fld v 8 8
    else if 0x6000 ≤ i && i < 0x6010 && j = 6 then v ≤ 2
    else configInRange s k v

/-- R390: the write's own operation would write the flash: the identity block, the measurement log, the history, a package or a patch slot
(log 151). -/
def writesFlash (a : Acc) (k v : Nat) : Bool :=
  a == .rwp || k == key 0x1101 1 || k == key 0x7100 1 || k == epochKey || k == key 0x6100 3 || (k == key 0x8000 3 && (v == 1 || v == 2)) || k == key 0xC000 3
  || (k == planKey 2 && v == 2)

def inRange (s : State) (a : Acc) (k v : Nat) : Bool :=
  commandInRange s k v && (flashOk s || !writesFlash a k v)

/-! ## Busy rules (check 10) -/

/-- R113: the map of the running or paused plan, or the one an armed plan would have now, uses the cluster. -/
def scaleBusy (s : State) (c : Nat) : Bool :=
  match s.plan.mode, s.plan.staged with
  | .none, _ => false
  | .armed, some im => ((freeClusters s).take im.nclust).contains c
  | _, _ => s.plan.map.contains c

/-- The object is busy under its own rules. Authority does not move while the twin port drives nothing (R443; log 97). -/
def objBusy (s : State) (k : Nat) : Bool :=
  let i := k / 256
  if k == planKey 2 then planBusy s
  else if k == authKey then !twinDrives s
  else if k == planKey 8 then planExists s
  else if 0x3000 ≤ i && i < 0x3040 then regionBusy s (i - 0x3000)
  else if 0x4100 ≤ i && i < 0x4120 && k % 256 != 1 then scaleBusy s (i - 0x4100)
  else false

/-! ## Effects -/

/-- R113: an entry written by the driver. What it gathered in the step in progress goes too: the rule names the history, readiness and the
owner only (log 169). -/
def writeScale (c e v : Nat) (s : State) : State :=
  let x : ScaleEntry :=
    if v == 0 then .cleared else { ScaleEntry.cleared with val := BitVec.ofNat 16 v, ready := true, written := true }
  modCl c (fun cl => { cl with scale := tset .cleared cl.scale e x }) s

/-- R398: EPOCH_ACQ before acquisition. -/
def epochAcqW (v : Nat) (s : State) : State :=
  let s := setObj (key 0x6100 3) v { s with boot := { s.boot with epochGiven := some v } }
  if s.boot.phase == .epochWait && s.twin.auth then acquireEpoch v 2 s else s

/-- PLAN_CMD. -/
def planCmdW (v : Nat) (s : State) : State :=
  if v == 1 then planLoadW s else if v == 2 then planActivateW s else if v == 3 then planPauseW s else planDiscardW s

/-- Table 18.9: a presence-qualified write is counted and measured, the object holds the value, and its operation runs. -/
def presenceW (k v : Nat) (s : State) : State :=
  let s := setObj k v (extendPresence k v s)
  if k == key 0x1008 2 then changeIdent (fun i => { i with idOverride := BitVec.ofNat 16 v }) s
  else if k == key 0x7100 2 then forceW v .fatal 0 s
  else if k == key 0x7300 1 then keepW v s
  else if k == key 0x9000 4 then histVoidW v s
  else if k == key 0x9000 5 then histClearW v s
  else if v == 1 then fwCommitTrialW s
  else fwCommitSwapW s

/-- A whole value takes effect on an object that is neither shared nor TWIN_AUTH. -/
def effectOf (r : Requester) (a : Acc) (k : Nat) (bytes : List Byte) (s : State) : State :=
  let v := payNum bytes 0 bytes.length
  if a == .rwp then presenceW k v s
  else if isSelector k then setSelector r k v s
  else match k / 256, k % 256 with
    | 0x1101, _ => extendMeas (payByte bytes 0) 8 0 (BitVec.ofNat 384 (payNum bytes 1 48)) s
    | 0x2400, 2 => planCmdW v s
    | 0x6100, 3 => epochAcqW v s
    | 0x7100, 1 => forceW (fld v 0 12) (if fld v 12 2 == 1 then .corrected else .contained) (fld v 16 4) s
    | 0x7200, 1 => ackRecordW v s
    | 0x7200, 2 => ackSourceW v s
    | 0x7200, 3 => ackAllW v s
    | 0x8000, 2 => { s with tests := { s.tests with staging := some bytes } }
    | 0x8010, 4 => watchSetW v s
    | 0xC000, 1 => fwLoadW bytes s
    | 0xC000, 3 => fwConfirmW s
    | i, j =>
      if 0x4100 ≤ i && i < 0x4120 then writeScale (i - 0x4100) (selector s r (key i 1) + (j - 2)) v s
      else setObj k v s

/-! ## Segments (R411) -/

/-- A write request: who sends it, its frame where it came in one, the object, offset, total length, data and LAST, and whether a presence
window was open at its last frame (R417). -/
structure WriteSeg where
  by_ : Requester
  req : Option CanReq
  key : Nat
  off : Nat
  total : Nat
  data : List Byte
  last : Bool
  presence : Bool
  deriving DecidableEq, Repr

def openOf (s : State) (k : Nat) : Option OpenWrite := s.dict.opens.find? (fun o => o.key == k)

def dropOpen (p : OpenWrite → Bool) (s : State) : State := { s with dict := { s.dict with opens := s.dict.opens.filter (fun o => !p o) } }

/-- FW_LOAD and TC_LOAD (R407). -/
def isLoad (k : Nat) : Bool := k == key 0x8000 2 || k == key 0xC000 1

/-- Check 6. -/
def lengthOk (s : State) (f : Fam) (w : WriteSeg) : Bool :=
  (if isLoad w.key then w.total % 256 == 0 && w.total ≤ 4194304 else w.total == f.len)
  && w.off + w.data.length ≤ w.total && w.last == (w.off + w.data.length == w.total)
  && (w.off == 0 || match openOf s w.key with
      | some o => o.by_ == w.by_ && o.total == w.total && o.bytes.length == w.off
      | none => false)

/-- The value that the segment completes. -/
def wholeValue (s : State) (w : WriteSeg) : List Byte :=
  (if w.off == 0 then [] else match openOf s w.key with | some o => o.bytes | none => []) ++ w.data

/-- Check 10 for the staging areas: the object is another requester's, or a fifth write would stay open. A register window channel
has one open write of its own, which a new one replaces (R415). -/
def stagingBusy (s : State) (w : WriteSeg) : Bool :=
  w.off == 0 && ((match openOf s w.key with | some o => o.by_ != w.by_ | none => false)
    || (!w.last && decide (4 ≤ (s.dict.opens.filter (fun o => !(o.by_ == w.by_ && (o.key == w.key || w.by_ matches .win _)))).length)))

/-- Table 18.3 from check 3 on: the error code, 0 where every check passes. The ROM responder applies R393 instead. -/
def writeCode (s : State) (w : WriteSeg) : Nat :=
  if romServes s then errBusy
  else if s.faults.fatal then errFatal
  else match findFam s.hw w.key with
    | none => errAbsent
    | some f =>
      if f.acc == .ro || f.acc == .rc then errAccess
      else if !lengthOk s f w then errLength
      else if !(w.off == 0 || w.last) then 0
      else if (f.acc == .rwt || f.acc == .rwp) && (s.twin.role == .splitFollower || (w.key == authKey && s.twin.silent)) then errTwinSplit
      else if f.acc == .rwp && !w.presence then errPresence
      else if w.last && !inRange s f.acc w.key (payNum (wholeValue s w) 0 w.total) then errRange
      else if objBusy s w.key || stagingBusy s w then errBusy
      else 0

/-- An accepted segment that does not complete its value. -/
def keepOpen (w : WriteSeg) (s : State) : State :=
  let o : OpenWrite := { key := w.key, by_ := w.by_, total := w.total, bytes := wholeValue s w }
  let s := dropOpen (fun o => o.key == w.key || (o.by_ == w.by_ && w.by_ matches .win _)) s
  { s with dict := { s.dict with opens := s.dict.opens ++ [o] } }

/-- A write waits for its reply. -/
def await (w : WriteSeg) (v : Nat) (s : State) : State :=
  { s with dict := { s.dict with waiting := s.dict.waiting ++ [{ gen := none, key := w.key, value := v, by_ := w.by_, req := w.req, size := w.total }] } }

/-- R305: a TWIN_AUTH write: one that changes nothing is complete, the holder begins the move, the other asks for it (log 97), once the
twin port may drive (R443). -/
def writeAuth (w : WriteSeg) (v : Nat) (s : State) : State :=
  if s.twin.authPending == some v && !authMoved s v then await w v s
  else if (v == ownIdx s) == s.twin.auth then finishFor w.by_ w.req w.key w.total 0 (extendPresence authKey v s)
  else whenS (twinDrives s) (await w v s) (beginAuth v)

/-- The whole value takes effect; a shared write and TWIN_AUTH may leave the reply waiting (R306, R318). -/
def applyWhole (w : WriteSeg) (s : State) : State :=
  let bytes := wholeValue s w
  let v := payNum bytes 0 bytes.length
  let a := match findFam s.hw w.key with | some f => f.acc | none => .ro
  let s := dropOpen (fun o => o.key == w.key) s
  if w.key == authKey then writeAuth w v s
  else if a == .rwt then
    if sharedWaits s then writeShared w.key v (await w v s) else finishFor w.by_ w.req w.key w.total 0 (writeShared w.key v s)
  else finishFor w.by_ w.req w.key w.total 0 (effectOf w.by_ a w.key bytes s)

/-- Table 18.3: one write segment is served. -/
def serveWrite (w : WriteSeg) (s : State) : State :=
  let c := writeCode s w
  if c != 0 then finishFor w.by_ w.req w.key 0 c (bumpIf (c == errPresence) (key 0x1200 5) 1 s)
  else if w.last then applyWhole w s
  else finishFor w.by_ w.req w.key (w.off + w.data.length) 0 (keepOpen w s)

end Sys2Proof.Machine
end

