-- ==== Sys2Proof/Machine/DictRows.lean ====
section
/-! DEFINITION. The rows that write the dictionary: the Renavasin WRITE and ABORT (R410, R411), the register window's write and abort
commands (R415), and the writes that the table names one by one; each is served by `serveWrite`. -/

namespace Sys2Proof.Machine

/-! ## The management port -/

/-- The data of a WRITE: what the frame carries after its 12 header bytes, at most 52 bytes, without padding beyond the total. -/
def writeData (m : CanReq) : List Byte :=
  (((m.payload.drop 12).take 52).take (payNum m.payload 4 4 - payNum m.payload 8 4))

/-- A WRITE served; `presence`: a presence window was open at its last frame. -/
def serveCanWrite (m : CanReq) (presence : Bool) (s : State) : State :=
  let k := reqKey m
  let off := payNum m.payload 8 4
  if frameMalformed m 12 || 1 < payByte m.payload 3 then replyError m k (malformedCode s) off s
  else
    let c := residueCheck s
    if !c.1 then replyError m k errInternal off c.2
    else serveWrite { by_ := .can m.src, req := some m, key := k, off := off, total := payNum m.payload 4 4, data := writeData m
                      last := payByte m.payload 3 == 1, presence := presence } c.2

/-- The requester's transfer on an object ends: its open write and its snapshot. -/
def endDictTransfer (r : Requester) (k : Nat) (s : State) : State :=
  let s := dropOpen (fun o => o.key == k && o.by_ == r) s
  match snapOf s r with
  | some n => if n.key == k then dropSnap r s else s
  | none => s

/-- An ABORT served: no reply, unless a check fails. -/
def serveAbort (m : CanReq) (s : State) : State :=
  if romServes s then replyError m (reqKey m) errBusy 0 s
  else if frameMalformed m 3 then replyError m (reqKey m) errMalformed 0 s
  else
    let c := residueCheck s
    if !c.1 then replyError m (reqKey m) errInternal 0 c.2
    else if !objExists c.2.hw (reqKey m) then replyError m (reqKey m) errAbsent 0 c.2
    else endDictTransfer (.can m.src) (reqKey m) c.2

/-- R408, R412: the controller serves a request: a repetition of the one last answered gets the kept reply. -/
def serveCan (b : Buffered) (s : State) : State :=
  let m := b.req
  let again := match s.dict.kept.find? (fun e => e.1 == m.src.toNat) with
    | some e => if e.2.tag == m.tag && e.2.payload == m.payload then some e.2 else none
    | none => none
  match again with
  | some q => sendCan q.reply.1 q.reply.2 s
  | none =>
    let s := bump (key 0x2050 7) 1 s
    match b.service with
    | 2 => serveRead m s
    | 4 => serveCanWrite m b.presence s
    | _ => serveAbort m s

/-- R408: the buffered requests are served before any that arrived after them. -/
def serveBuffer (s : State) : State := forEach s.dict.canBuf serveCan { s with dict := { s.dict with canBuf := [] } }

/-- One buffered request is served. -/
def serveHead (s : State) : State :=
  match s.dict.canBuf with
  | [] => s
  | b :: r => serveCan b { s with dict := { s.dict with canBuf := r } }

/-- R410: the frame is a request: services that only an instance sends are none. -/
def isRequest (m : CanReq) : Bool := match m.service with | some v => v == 0 || decide (8 ≤ v.toNat) | none => true

/-- A request frame arrives, addressed to this node: it is served, or waits in the buffer of seven, or is dropped (R412). -/
def canRequest (m : CanReq) (service : Nat) (s : State) : State :=
  if !powered s || s.dict.busOff || m.dst != ownNode s || m.dst == 0x7F || !isRequest m then s
  else if !m.waits then serveCan { service := service, req := m, presence := presenceOpen s } (serveBuffer s)
  else if 7 ≤ s.dict.canBuf.length then bump (key 0x2050 8) 1 s
  else { s with dict := { s.dict with canBuf := s.dict.canBuf ++ [{ service := service, req := m, presence := presenceOpen s }] } }

/-- READ. -/
def execRead (m : CanReq) (s : State) : Host.Outcome State Fault Refusal := guarded true s (canRequest m 2)

/-- WRITE. -/
def execWrite (m : CanReq) (s : State) : Host.Outcome State Fault Refusal := guarded true s (canRequest m 4)

/-- ABORT. -/
def execAbort (m : CanReq) (s : State) : Host.Outcome State Fault Refusal := guarded true s (canRequest m 7)

/-- OPEN_WRITE_EXPIRY (R411). -/
def execOpenWriteExpiry (key : BitVec 24) (s : State) : Host.Outcome State Fault Refusal :=
  guarded true s (dropOpen (fun o => o.key == key.toNat))

/-! ## The register window -/

/-- A write of WIN_CMD: ignored while BUSY (R415). -/
def winCommand (k : Bool) (sel off len : Nat) (s : State) (f : State → State) : State :=
  if !powered s || (getWin s k).busy then s else f (beginWin k sel off len (serveBuffer s))

/-- A read segment of channel k. -/
def winRead (k : Bool) (sel off : BitVec 32) (v : Vote) (s : State) : State :=
  winCommand k sel.toNat off.toNat (getWin s k).len.toNat s (serveWinRead k sel off v)

/-- A write segment served: 64 bytes of WIN_DATA, or what is left of the total. -/
def serveWinWrite (k : Bool) (sel off len : BitVec 32) (last : Bool) (s : State) : State :=
  if winMalformed sel off then winDone k (malformedCode s) s
  else
    let c := residueCheck s
    if !c.1 then winDone k errInternal c.2
    else serveWrite { by_ := .win k, req := none, key := selKey sel, off := off.toNat, total := len.toNat
                      data := ((getWin c.2 k).data.take 64).take (len.toNat - off.toNat), last := last, presence := presenceOpen s } c.2

/-- The registers of WIN_DATA that are written; the others keep their value. -/
def winData (old data : List Byte) : List Byte := data.take 64 ++ (old.take 64).drop data.length

/-- A write segment of channel k with the data written before the command. -/
def winWrite (k : Bool) (sel off len : BitVec 32) (data : List Byte) (last : Bool) (s : State) : State :=
  winCommand k sel.toNat off.toNat len.toNat s fun s =>
    serveWinWrite k sel off len last (modWin k (fun w => { w with data := winData w.data data }) s)

/-- WIN_READ_SEGMENT. -/
def execWinReadSegment (k : Bool) (sel : BitVec 32) (r : WinRead) (s : State) : Host.Outcome State Fault Refusal :=
  guarded true s (winRead k sel r.off r.vote)

/-- WIN_WRITE_SEGMENT. -/
def execWinWriteSegment (k : Bool) (sel off len : BitVec 32) (data : List Byte) (s : State) : Host.Outcome State Fault Refusal :=
  guarded true s (winWrite k sel off len data false)

/-- WIN_WRITE_LAST. -/
def execWinWriteLast (k : Bool) (sel off len : BitVec 32) (data : List Byte) (s : State) : Host.Outcome State Fault Refusal :=
  guarded true s (winWrite k sel off len data true)

/-- The channel's open transfer ends; WIN_SEL is checked as of any request (R408). -/
def serveWinAbort (k : Bool) (sel : BitVec 32) (s : State) : State :=
  if romServes s then winDone k errBusy s
  else if sel.toNat % 256 != 0 then winDone k errMalformed s
  else
  let c := residueCheck s
  if !c.1 then winDone k errInternal c.2
  else if !objExists c.2.hw (selKey sel) then winDone k errAbsent c.2
  else winDone k 0 (dropSnap (.win k) (dropOpen (fun o => o.by_ == .win k) c.2))

/-- WIN_ABORT: a write of WIN_CMD with the registers as they stand: 0x4 aborts, a value not in the table completes with ERROR 0x0A (R415),
and the values of the other rows do what they do. -/
def execWinAbort (k : Bool) (c : WinCmd) (s : State) : Host.Outcome State Fault Refusal :=
  guarded true s fun s =>
    let w := getWin s k
    winCommand k c.sel.toNat w.off.toNat w.len.toNat s fun s =>
      match c.cmd.toNat with
      | 1 => serveWinRead k c.sel w.off .agree s
      | 2 => serveWinWrite k c.sel w.off w.len false s
      | 3 => serveWinWrite k c.sel w.off w.len true s
      | 4 => serveWinAbort k c.sel s
      | _ => winDone k (malformedCode s) s

/-! ## NOTE_PEND (R413, R415) -/

/-- NOTE_PEND_READ: returned to the requester, and cleared for both paths. -/
def execNotePendRead (r : Requester) (s : State) : Host.Outcome State Fault Refusal :=
  guarded true s fun s =>
    whenS (powered s) s fun s =>
      match r with
      | .win c => setObj (key 0x2050 5) 0 (emit (.noteRead c (obj s (key 0x2050 5))) s)
      | .can _ =>
        whenS (!s.dict.busOff) s fun s =>
          let s := bump (key 0x2050 7) 1 (serveBuffer s)
          if romServes s then countError errBusy s
          else
            let c := residueCheck s
            if !c.1 then countError errInternal c.2 else capture r (key 0x2050 5) c.2

/-! ## Writes with a row of their own -/

/-- The longest segment of a requester (R410, R415). -/
def segmentMax (r : Requester) : Nat := match r with | .can _ => 52 | .win _ => 64

/-- Checks 1 and 2, then the rest of Table 18.3. -/
def serveRow (long : Bool) (w : WriteSeg) (s : State) : State :=
  if long then finishFor w.by_ w.req w.key 0 (malformedCode s) s
  else
    let c := residueCheck s
    if !c.1 then finishFor w.by_ w.req w.key 0 errInternal c.2 else serveWrite w c.2

/-- Where the last segment of 64 bytes of the data begins. -/
def lastSegment (data : List Byte) : Nat := (data.length - 1) / 64 * 64

/-- WIN_DATA after a channel has carried the data, segment by segment. -/
def fillData (c : Bool) (data : List Byte) (s : State) : State :=
  modWin c (fun w => { w with data := winData (winData w.data (data.take (lastSegment data) |>.drop (lastSegment data - 64))) (data.drop (lastSegment data)) }) s

/-- A requester's write reaches the controller; a channel whose command is in progress takes no other. -/
def rowWrite (r : Requester) (k off total : Nat) (data : List Byte) (last long : Bool) (s : State) : State :=
  let w : WriteSeg :=
    { by_ := r, req := none, key := k, off := off, total := total, data := data, last := last, presence := presenceOpen s }
  match r with
  | .win c =>
    if !powered s || (getWin s c).busy then s
    else serveRow long w (fillData c data (beginWin c (k * 256) (off + lastSegment data) total (serveBuffer s)))
  | .can _ => if !powered s || s.dict.busOff then s else serveRow long w (bump (key 0x2050 7) 1 (serveBuffer s))

/-- One segment of a write in segments: none is longer than the path carries. -/
def rowSegment (r : Requester) (k off total : Nat) (data : List Byte) (last : Bool) (s : State) : State :=
  rowWrite r k off total data last (decide (segmentMax r < data.length)) s

/-- A whole value of n bytes. -/
def rowValue (r : Requester) (k n v : Nat) (s : State) : State := rowWrite r k 0 n (bytesOf n v) true false s

/-- PLAN_LOAD: PLAN_CMD 0x01 (R245). -/
def execPlanLoad (r : Requester) (s : State) : Host.Outcome State Fault Refusal := guarded true s (rowValue r (planKey 2) 1 1)

/-- PLAN_ACTIVATE: PLAN_CMD 0x02. -/
def execPlanActivate (r : Requester) (s : State) : Host.Outcome State Fault Refusal := guarded true s (rowValue r (planKey 2) 1 2)

/-- PLAN_PAUSE: PLAN_CMD 0x03. -/
def execPlanPause (r : Requester) (s : State) : Host.Outcome State Fault Refusal := guarded true s (rowValue r (planKey 2) 1 3)

/-- PLAN_DISCARD: PLAN_CMD 0x04. -/
def execPlanDiscard (r : Requester) (s : State) : Host.Outcome State Fault Refusal := guarded true s (rowValue r (planKey 2) 1 4)

/-- EPOCH_WRITE (R288). -/
def execEpochWrite (r : Requester) (value : BitVec 16) (s : State) : Host.Outcome State Fault Refusal :=
  guarded true s (rowValue r epochKey 2 value.toNat)

/-- ACK_SOURCE (R359). -/
def execAckSource (r : Requester) (value : BitVec 16) (s : State) : Host.Outcome State Fault Refusal :=
  guarded true s (rowValue r (key 0x7200 2) 2 value.toNat)

/-- ACK_ALL (R359). -/
def execAckAll (r : Requester) (value : BitVec 8) (s : State) : Host.Outcome State Fault Refusal :=
  guarded true s (rowValue r (key 0x7200 3) 1 value.toNat)

/-- ACK_RECORD (R359). -/
def execAckRecord (r : Requester) (value : BitVec 8) (s : State) : Host.Outcome State Fault Refusal :=
  guarded true s (rowValue r (key 0x7200 1) 1 value.toNat)

/-- FORCE (R364). -/
def execForce (r : Requester) (value : BitVec 32) (s : State) : Host.Outcome State Fault Refusal :=
  guarded true s (rowValue r (key 0x7100 1) 4 value.toNat)

/-- FORCE_FATAL (R364). -/
def execForceFatal (r : Requester) (value : BitVec 16) (s : State) : Host.Outcome State Fault Refusal :=
  guarded true s (rowValue r (key 0x7100 2) 2 value.toNat)

/-- KEEP (R363). -/
def execKeep (r : Requester) (value : BitVec 16) (s : State) : Host.Outcome State Fault Refusal :=
  guarded true s (rowValue r (key 0x7300 1) 2 value.toNat)

/-- WATCH_SET (R380). -/
def execWatchSet (r : Requester) (value : BitVec 16) (s : State) : Host.Outcome State Fault Refusal :=
  guarded true s (rowValue r (key 0x8010 4) 2 value.toNat)

/-- HIST_VOID (R385). -/
def execHistVoid (r : Requester) (value : BitVec 32) (s : State) : Host.Outcome State Fault Refusal :=
  guarded true s (rowValue r (key 0x9000 4) 4 value.toNat)

/-- HIST_CLEAR (R385). -/
def execHistClear (r : Requester) (value : BitVec 8) (s : State) : Host.Outcome State Fault Refusal :=
  guarded true s (rowValue r (key 0x9000 5) 1 value.toNat)

/-- TC_LOAD (R386): one segment. -/
def execTcLoad (r : Requester) (total off : BitVec 32) (data : List Byte) (last : Bool) (s : State) : Host.Outcome State Fault Refusal :=
  guarded true s (rowSegment r (key 0x8000 2) off.toNat total.toNat data last)

/-- TC_INSTALL: TC_CMD 0x01 (R386). -/
def execTcInstall (r : Requester) (s : State) : Host.Outcome State Fault Refusal := guarded true s (rowValue r (key 0x8000 3) 1 1)

/-- TC_REMOVE: TC_CMD 0x02. -/
def execTcRemove (r : Requester) (s : State) : Host.Outcome State Fault Refusal := guarded true s (rowValue r (key 0x8000 3) 1 2)

/-- TC_DISCARD: TC_CMD 0x03. -/
def execTcDiscard (r : Requester) (s : State) : Host.Outcome State Fault Refusal := guarded true s (rowValue r (key 0x8000 3) 1 3)

/-- EPOCH_ACQ (R398). -/
def execEpochAcq (r : Requester) (value : BitVec 16) (s : State) : Host.Outcome State Fault Refusal :=
  guarded true s (rowValue r (key 0x6100 3) 2 value.toNat)

/-- ID_OVERRIDE (R397). -/
def execIdOverride (r : Requester) (value : BitVec 16) (s : State) : Host.Outcome State Fault Refusal :=
  guarded true s (rowValue r (key 0x1008 2) 2 value.toNat)

/-- MEAS_EXTEND (R399): the register, then the 48 bytes of the digest. -/
def execMeasExtend (r : Requester) (reg : BitVec 8) (digest : BitVec 384) (s : State) : Host.Outcome State Fault Refusal :=
  guarded true s (rowValue r (key 0x1101 1) 49 (reg.toNat + 256 * digest.toNat))

/-- FW_LOAD (R402): one segment. -/
def execFwLoad (r : Requester) (total off : BitVec 32) (data : List Byte) (last : Bool) (s : State) : Host.Outcome State Fault Refusal :=
  guarded true s (rowSegment r (key 0xC000 1) off.toNat total.toNat data last)

/-- FW_COMMIT_TRIAL: FW_COMMIT 0x01 (R402). -/
def execFwCommitTrial (r : Requester) (s : State) : Host.Outcome State Fault Refusal := guarded true s (rowValue r (key 0xC000 2) 1 1)

/-- FW_COMMIT_SWAP: FW_COMMIT 0x02 (R402). -/
def execFwCommitSwap (r : Requester) (s : State) : Host.Outcome State Fault Refusal := guarded true s (rowValue r (key 0xC000 2) 1 2)

/-- FW_CONFIRM (R403). -/
def execFwConfirm (r : Requester) (value : BitVec 8) (s : State) : Host.Outcome State Fault Refusal :=
  guarded true s (rowValue r (key 0xC000 3) 1 value.toNat)

/-- OBJECT_WRITE (R408): any object, whole. -/
def execObjectWrite (r : Requester) (key : BitVec 24) (value : List Byte) (s : State) : Host.Outcome State Fault Refusal :=
  guarded true s (rowWrite r key.toNat 0 value.length value true false)

/-- REGION_WRITE (R250). -/
def execRegionWrite (r : Requester) (region : BitVec 6) (entry : BitVec 128) (s : State) : Host.Outcome State Fault Refusal :=
  guarded true s (rowValue r (key (0x3000 + region.toNat) 1) 16 entry.toNat)

/-- RET_PAGE_WRITE (R261). -/
def execRetPageWrite (r : Requester) (i : BitVec 8) (value : Word) (s : State) : Host.Outcome State Fault Refusal :=
  guarded true s (rowValue r (retKey i.toNat) 8 value.toNat)

/-- SF_ENTRY_WRITE (R113, R431). -/
def execSfEntryWrite (r : Requester) (c : BitVec 5) (sub : BitVec 8) (value : BitVec 16) (s : State) :
    Host.Outcome State Fault Refusal :=
  guarded true s (rowValue r (key (0x4100 + c.toNat) sub.toNat) 2 value.toNat)

/-- TWIN_AUTH_WRITE (R305). -/
def execTwinAuthWrite (r : Requester) (value : BitVec 8) (s : State) : Host.Outcome State Fault Refusal :=
  guarded true s (rowValue r authKey 1 value.toNat)

/-- IRQ_ENABLE_WRITE (R425): the outputs follow the object at once. -/
def execIrqEnableWrite (r : Requester) (value : BitVec 8) (s : State) : Host.Outcome State Fault Refusal :=
  guarded true s (rowValue r (key 0x2070 1) 1 value.toNat)

/-! ## Time that passes when no command is waiting (log 6) -/

/-- What a step does on an empty queue: the controller serves one request of the management port's buffer, one plan tick passes, and the
clusters go on; nothing happens without power. -/
def idleStep (s : State) : State := if s.boot.phase = .off then s else clusterTicks (tickStep (serveHead s))

end Sys2Proof.Machine
end

