-- ==== Sys2Proof/Machine/Dispatch.lean ====
section
/-! DEFINITION. The dispatch: one arm per constructor of `Instr`, each one direct call of its meaning. -/

namespace Sys2Proof.Machine

def exec (i : Instr) (s : State) : Host.Outcome State Fault Refusal :=
  match i with
  | .endProg q => Sys2Proof.Machine.execEndProg q s
  | .nop q => Sys2Proof.Machine.execNop q s
  | .waitt q t => Sys2Proof.Machine.execWaitt q t s
  | .waitd q db v => Sys2Proof.Machine.execWaitd q db v s
  | .sig q db => Sys2Proof.Machine.execSig q db s
  | .loop q n l => Sys2Proof.Machine.execLoop q n l s
  | .xop q reg add v => Sys2Proof.Machine.execXop q reg add v s
  | .gate q xsel pass neuron => Sys2Proof.Machine.execGate q xsel pass neuron s
  | .dmark q xsel dslot ord => Sys2Proof.Machine.execDmark q xsel dslot ord s
  | .step q => Sys2Proof.Machine.execStep q s
  | .fetch q xsel desc off slot cnt => Sys2Proof.Machine.execFetch q xsel desc off slot cnt s
  | .xpw q xsel desc slot cnt tile path transposed krows col0 => Sys2Proof.Machine.execXpw q xsel desc slot cnt tile path transposed krows col0 s
  | .xpa q xsel desc slot cnt tile row dest => Sys2Proof.Machine.execXpa q xsel desc slot cnt tile row dest s
  | .flick q xsel pass mode fdesc aslot gslot rows => Sys2Proof.Machine.execFlick q xsel pass mode fdesc aslot gslot rows s
  | .topen q tile tdesc mode => Sys2Proof.Machine.execTopen q tile tdesc mode s
  | .pack q xsel tile desc off stats ptok stoch link port => Sys2Proof.Machine.execPack q xsel tile desc off stats ptok stoch link port s
  | .svec q desc vdesc => Sys2Proof.Machine.execSvec q desc vdesc s
  | .save q tile desc => Sys2Proof.Machine.execSave q tile desc s
  | .restore q tile desc tdesc => Sys2Proof.Machine.execRestore q tile desc tdesc s
  | .scsave q desc sdesc => Sys2Proof.Machine.execScsave q desc sdesc s
  | .screst q desc sdesc => Sys2Proof.Machine.execScrest q desc sdesc s
  | .send q xsel xdesc cnt slot off => Sys2Proof.Machine.execSend q xsel xdesc cnt slot off s
  | .recv q xsel xdesc cnt slot off => Sys2Proof.Machine.execRecv q xsel xdesc cnt slot off s
  | .chorus q xsel xdesc cnt slot off => Sys2Proof.Machine.execChorus q xsel xdesc cnt slot off s
  | .planLoad r => Sys2Proof.Machine.execPlanLoad r s
  | .planLoadComplete image uncorrectable => Sys2Proof.Machine.execPlanLoadComplete image uncorrectable s
  | .planActivate r => Sys2Proof.Machine.execPlanActivate r s
  | .planPause r => Sys2Proof.Machine.execPlanPause r s
  | .planDiscard r => Sys2Proof.Machine.execPlanDiscard r s
  | .armedActivation => Sys2Proof.Machine.execArmedActivation s
  | .frameStart => Sys2Proof.Machine.execFrameStart s
  | .slotStart q slot => Sys2Proof.Machine.execSlotStart q slot s
  | .slotLastTick q => Sys2Proof.Machine.execSlotLastTick q s
  | .completionRecord q => Sys2Proof.Machine.execCompletionRecord q s
  | .testSlotStart => Sys2Proof.Machine.execTestSlotStart s
  | .testSlotEnd untested => Sys2Proof.Machine.execTestSlotEnd untested s
  | .testItemVerdict source pkg item signature builtinPass bank row => Sys2Proof.Machine.execTestItemVerdict source pkg item signature builtinPass bank row s
  | .digestIntervalEnd => Sys2Proof.Machine.execDigestIntervalEnd s
  | .laneRemap c => Sys2Proof.Machine.execLaneRemap c s
  | .latePoisonNotice c lane weightPort seqs => Sys2Proof.Machine.execLatePoisonNotice c lane weightPort seqs s
  | .partialResult c words => Sys2Proof.Machine.execPartialResult c words s
  | .spadRmwReturn c lane old => Sys2Proof.Machine.execSpadRmwReturn c lane old s
  | .tileDrainReady c entry acc => Sys2Proof.Machine.execTileDrainReady c entry acc s
  | .tileRelease c entry => Sys2Proof.Machine.execTileRelease c entry s
  | .residueCheckFail site syndrome => Sys2Proof.Machine.execResidueCheckFail site syndrome s
  | .producerVerdict maker confirm => Sys2Proof.Machine.execProducerVerdict maker confirm s
  | .flickMaskRelease c pass => Sys2Proof.Machine.execFlickMaskRelease c pass s
  | .flickVerifyResult c pass neuron => Sys2Proof.Machine.execFlickVerifyResult c pass neuron s
  | .fabricReadResponse c data ue => Sys2Proof.Machine.execFabricReadResponse c data ue s
  | .fabricWriteDone c => Sys2Proof.Machine.execFabricWriteDone c s
  | .eaDone u lanes => Sys2Proof.Machine.execEaDone u lanes s
  | .queueRead queue flips word => Sys2Proof.Machine.execQueueRead queue flips word s
  | .breachWindowEnd island mhz => Sys2Proof.Machine.execBreachWindowEnd island mhz s
  | .linkUp p => Sys2Proof.Machine.execLinkUp p s
  | .linkDown p => Sys2Proof.Machine.execLinkDown p s
  | .dataFrameRx p f => Sys2Proof.Machine.execDataFrameRx p f s
  | .verdictFrameRx p f => Sys2Proof.Machine.execVerdictFrameRx p f s
  | .resyncRequestRx p f => Sys2Proof.Machine.execResyncRequestRx p f s
  | .resyncAckRx p f => Sys2Proof.Machine.execResyncAckRx p f s
  | .resyncRepeat p => Sys2Proof.Machine.execResyncRepeat p s
  | .resyncTimeout p => Sys2Proof.Machine.execResyncTimeout p s
  | .verdictOnlySend p => Sys2Proof.Machine.execVerdictOnlySend p s
  | .verdictTimeout p => Sys2Proof.Machine.execVerdictTimeout p s
  | .chorusCombine p => Sys2Proof.Machine.execChorusCombine p s
  | .epochWrite r value => Sys2Proof.Machine.execEpochWrite r value s
  | .croakSend => Sys2Proof.Machine.execCroakSend s
  | .croakRx word => Sys2Proof.Machine.execCroakRx word s
  | .croakWindowEnd => Sys2Proof.Machine.execCroakWindowEnd s
  | .probeReply a => Sys2Proof.Machine.execProbeReply a s
  | .probeTimeout acked => Sys2Proof.Machine.execProbeTimeout acked s
  | .twinMessageRx m => Sys2Proof.Machine.execTwinMessageRx m s
  | .mirrorComplete twinInstance twinHasAuthority => Sys2Proof.Machine.execMirrorComplete twinInstance twinHasAuthority s
  | .faultReport new scaleEntry vote => Sys2Proof.Machine.execFaultReport new scaleEntry vote s
  | .policyAck source cls => Sys2Proof.Machine.execPolicyAck source cls s
  | .ackSource r value => Sys2Proof.Machine.execAckSource r value s
  | .ackAll r value => Sys2Proof.Machine.execAckAll r value s
  | .ackRecord r value => Sys2Proof.Machine.execAckRecord r value s
  | .force r value => Sys2Proof.Machine.execForce r value s
  | .forceFatal r value => Sys2Proof.Machine.execForceFatal r value s
  | .keep r value => Sys2Proof.Machine.execKeep r value s
  | .watchSet r value => Sys2Proof.Machine.execWatchSet r value s
  | .histVoid r value => Sys2Proof.Machine.execHistVoid r value s
  | .histClear r value => Sys2Proof.Machine.execHistClear r value s
  | .tcLoad r total off data last => Sys2Proof.Machine.execTcLoad r total off data last s
  | .tcInstall r => Sys2Proof.Machine.execTcInstall r s
  | .tcRemove r => Sys2Proof.Machine.execTcRemove r s
  | .tcDiscard r => Sys2Proof.Machine.execTcDiscard r s
  | .coldStart nodeId twinIdx flashReadable badEntries => Sys2Proof.Machine.execColdStart nodeId twinIdx flashReadable badEntries s
  | .powerFail => Sys2Proof.Machine.execPowerFail s
  | .warmQuiesce => Sys2Proof.Machine.execWarmQuiesce s
  | .warmStart => Sys2Proof.Machine.execWarmStart s
  | .controllerReady => Sys2Proof.Machine.execControllerReady s
  | .bootAttemptTimeout => Sys2Proof.Machine.execBootAttemptTimeout s
  | .coldTestBudgetEnd aborted deferred => Sys2Proof.Machine.execColdTestBudgetEnd aborted deferred s
  | .epochAcq r value => Sys2Proof.Machine.execEpochAcq r value s
  | .epochAcqTimeout => Sys2Proof.Machine.execEpochAcqTimeout s
  | .idOverride r value => Sys2Proof.Machine.execIdOverride r value s
  | .measExtend r reg digest => Sys2Proof.Machine.execMeasExtend r reg digest s
  | .fwLoad r total off data last => Sys2Proof.Machine.execFwLoad r total off data last s
  | .fwCommitTrial r => Sys2Proof.Machine.execFwCommitTrial r s
  | .fwCommitSwap r => Sys2Proof.Machine.execFwCommitSwap r s
  | .fwConfirm r value => Sys2Proof.Machine.execFwConfirm r value s
  | .read m => Sys2Proof.Machine.execRead m s
  | .write m => Sys2Proof.Machine.execWrite m s
  | .abort m => Sys2Proof.Machine.execAbort m s
  | .winReadSegment k sel r => Sys2Proof.Machine.execWinReadSegment k sel r s
  | .winWriteSegment k sel off len data => Sys2Proof.Machine.execWinWriteSegment k sel off len data s
  | .winWriteLast k sel off len data => Sys2Proof.Machine.execWinWriteLast k sel off len data s
  | .winAbort k c => Sys2Proof.Machine.execWinAbort k c s
  | .notePendRead r => Sys2Proof.Machine.execNotePendRead r s
  | .notifyHoldoffEnd code => Sys2Proof.Machine.execNotifyHoldoffEnd code s
  | .snapshotExpiry r => Sys2Proof.Machine.execSnapshotExpiry r s
  | .openWriteExpiry key => Sys2Proof.Machine.execOpenWriteExpiry key s
  | .replyRetentionExpiry node => Sys2Proof.Machine.execReplyRetentionExpiry node s
  | .busOff => Sys2Proof.Machine.execBusOff s
  | .objectWrite r key value => Sys2Proof.Machine.execObjectWrite r key value s
  | .regionWrite r region entry => Sys2Proof.Machine.execRegionWrite r region entry s
  | .retPageWrite r entry value => Sys2Proof.Machine.execRetPageWrite r entry value s
  | .sfEntryWrite r c sub value => Sys2Proof.Machine.execSfEntryWrite r c sub value s
  | .twinAuthWrite r value => Sys2Proof.Machine.execTwinAuthWrite r value s
  | .irqEnableWrite r value => Sys2Proof.Machine.execIrqEnableWrite r value s
  | .presencePinChange low => Sys2Proof.Machine.execPresencePinChange low s
  | .presenceQualified => Sys2Proof.Machine.execPresenceQualified s
  | .presenceWindowEnd => Sys2Proof.Machine.execPresenceWindowEnd s
  | .presenceRearm => Sys2Proof.Machine.execPresenceRearm s
  | .timeLoadFrame bits => Sys2Proof.Machine.execTimeLoadFrame bits s
  | .timeSync => Sys2Proof.Machine.execTimeSync s
  | .thermPinChange stack crit low => Sys2Proof.Machine.execThermPinChange stack crit low s
  | .thermRelease stack => Sys2Proof.Machine.execThermRelease stack s
  | .ceilingEnd q => Sys2Proof.Machine.execCeilingEnd q s
  | .flashWriteDone ok => Sys2Proof.Machine.execFlashWriteDone ok s
  | .busOffRecovery => Sys2Proof.Machine.execBusOffRecovery s
  | .supplyDroop island below stretched => Sys2Proof.Machine.execSupplyDroop island below stretched s

end Sys2Proof.Machine
end

