-- ==== Sys2Proof/Safety.lean ====
section
/-! DEFINITION. The words the statements use: a command that completes, what a frame leaves alone, when a walk instruction issues,
when a dictionary request is served, and the invariants of the State. -/

namespace Sys2Proof.Machine

/-- The command completes: `exec` answers a next state, and `P` holds of it. -/
def Completes (i : Instr) (s : State) (P : State → Prop) : Prop := ∃ t, exec i s = .next t ∧ P t

/-! ## Units -/

/-- R9, R421: the configuration has every unit that the command names. -/
def unitsOk (hw : Hw) : Instr → Bool
  | .endProg q | .nop q | .waitt q _ | .waitd q _ _ | .sig q _ | .loop q _ _ | .xop q _ _ _ | .gate q _ _ _ | .dmark q _ _ _
  | .step q | .fetch q _ _ _ _ _ | .xpw q _ _ _ _ _ _ _ _ _ | .xpa q _ _ _ _ _ _ _ | .flick q _ _ _ _ _ _ _ | .topen q _ _ _
  | .pack q _ _ _ _ _ _ _ _ _ | .svec q _ _ | .save q _ _ | .restore q _ _ _ | .scsave q _ _ | .screst q _ _
  | .send q _ _ _ _ _ | .recv q _ _ _ _ _ | .chorus q _ _ _ _ _ | .slotStart q _ | .slotLastTick q | .completionRecord q
  | .ceilingEnd q => seqExists hw q.toNat
  | .laneRemap c | .partialResult c _ | .spadRmwReturn c _ _ | .tileDrainReady c _ _ | .tileRelease c _ | .flickMaskRelease c _
  | .flickVerifyResult c _ _ | .fabricReadResponse c _ _ | .fabricWriteDone c => c.toNat < nClusters hw
  | .latePoisonNotice c lane _ _ => c.toNat < nClusters hw && lane.toNat < 17
  | .linkUp p | .linkDown p | .dataFrameRx p _ | .verdictFrameRx p _ | .resyncRequestRx p _ | .resyncAckRx p _ | .resyncRepeat p
  | .resyncTimeout p | .verdictOnlySend p | .verdictTimeout p | .chorusCombine p => p.toNat < nPorts hw
  | .queueRead q _ _ => queueExists hw q.toNat
  | .breachWindowEnd i _ | .supplyDroop i _ _ => islandExists hw i.toNat
  | .residueCheckFail site _ => sitePresent hw site
  | .producerVerdict m _ => makerPresent hw m
  | .faultReport (some d) _ _ => srcExists hw d.source.toNat
  | .policyAck k _ | .testItemVerdict k _ _ _ _ _ _ => srcExists hw k.toNat
  | _ => true

/-! ## Frames -/

/-- Every object but these reads as before. -/
def OnlyObjects (ks : List Nat) (s t : State) : Prop := ∀ k, k ∉ ks → obj t k = obj s k

/-- Every sequencer but q is as before. -/
def OnlySeq (q : Nat) (s t : State) : Prop := ∀ j, j ≠ q → getSeq t j = getSeq s j

/-- Every cluster but c is as before. -/
def OnlyCluster (c : Nat) (s t : State) : Prop := ∀ j, j ≠ c → getCl t j = getCl s j

/-- Every port but p is as before. -/
def OnlyPort (p : Nat) (s t : State) : Prop := ∀ j, j ≠ p → getPort t j = getPort s j

/-- Every fault source but k is as before. -/
def OnlySource (k : Nat) (s t : State) : Prop := ∀ j, j ≠ k → getSrc t j = getSrc s j

/-- A counter advanced by n, saturating at the largest value of its type. -/
def Advanced (k n : Nat) (s t : State) : Prop := obj t k = min (obj s k + n) (objMax s.hw k)

/-! ## Walk instructions -/

/-- The walk instruction is the next word of sequencer q and nothing holds it. -/
def Issues (i : Instr) (q : BitVec 6) (s : State) : Prop :=
  i.wf = true ∧ seqExists s.hw q.toNat = true ∧ canIssue s q.toNat i = true

/-- ISSUE_SLIP of sequencer q. -/
def slipKey (q : Nat) : Nat := key 0x2412 (q + 1)

/-- R227: the slot-relative tick at which the next instruction of sequencer q is planned, and the ticks by which it is late now. -/
def plannedAt (s : State) (q : Nat) (u : WUnit) : Nat := (getSeq s q).mapped ((getSeq s q).planned u)
def lateBy (s : State) (q : Nat) (u : WUnit) : Nat := s.clock.tick - (getSeq s q).start - plannedAt s q u

/-- R227, R232: the instruction issued: its tick, the issue slip, the word that is next, the prefixes spent. -/
def IssuedFrom (q : Nat) (u : WUnit) (s t : State) : Prop :=
  (getSeq t q).lastIssue = max (plannedAt s q u) (s.clock.tick - (getSeq s q).start)
  ∧ ((getSeq t q).pc, (getSeq t q).loops) = advancePc (getSeq s q).pc (getSeq s q).loops
  ∧ (getSeq t q).gate = none ∧ (getSeq t q).dmark = none ∧ (getSeq t q).waitUnit = none

/-- R437: these reads of cluster c were requested, in order, or wait behind the 512 that may be outstanding. -/
def Requested (c : Nat) (l : List ReadReq) (s t : State) : Prop :=
  let room := 512 - (getCl s c).reads.length
  (getCl t c).reads = (getCl s c).reads ++ l.take room ∧ (getCl t c).readWait.map (·.1) = (getCl s c).readWait.map (·.1) ++ l.drop room

/-- The same by what each read is for. -/
def RequestedFor (c : Nat) (l : List ReadFor) (s t : State) : Prop :=
  let room := 512 - (getCl s c).reads.length
  (getCl t c).reads.map (·.use) = (getCl s c).reads.map (·.use) ++ l.take room
  ∧ (getCl t c).readWait.map (·.1.use) = (getCl s c).readWait.map (·.1.use) ++ l.drop room

/-- R185, R187: an expansion of a skipped neuron: issued, nothing driven; its tile may be marked PREDICTED. -/
def SkippedExpansion (c num : Nat) (s t : State) : Prop :=
  t = { s with seqs := t.seqs, objs := t.objs, clusters := t.clusters } ∧ OnlyCluster c s t
  ∧ getCl t c = getCl (markPredicted c num (gateOf s c) s) c ∧ OnlyObjects [slipKey c] s t ∧ IssuedFrom c .ln s t

/-- R225: a tile closed by a PACK that asked this of it. -/
def closedBy (t : Tile) (r : PackReq) : Tile := { t with named := false, closed := some r }

/-! ## Lanes -/

/-- R30: what becomes of an instruction of opcode `op` that the lanes of cluster c accepted: done where every container it needs is there and
nothing is before it, else the last of what the lanes have still to do, waiting for the containers `needs`. -/
def LanesTake (c op : Nat) (needs : List (Nat × Nat)) (s t : State) : Prop :=
  (needs = [] → (getCl s c).lane = [] → (getCl t c).lane = [])
  ∧ (needs ≠ [] ∨ (getCl s c).lane ≠ [] → ∃ j, (getCl t c).lane = (getCl s c).lane ++ [j] ∧ j.op = op ∧ j.needs = needs ∧ j.late = false)

/-! ## Deliveries -/

/-- The weight and activation deliveries of cluster c in a list of outputs. -/
def weightOuts (c : Nat) (l : List Out) : Nat := (l.filter (fun o => match o with | .weight k _ _ _ _ _ => k == c | _ => false)).length
def activationOuts (c : Nat) (l : List Out) : Nat := (l.filter (fun o => match o with | .activation k _ _ _ => k == c | _ => false)).length

/-- The block drove some outputs, and the sequence numbers of cluster c's two array ports moved on by one for each delivery. -/
def Delivered (c : Nat) (s t : State) : Prop :=
  ∃ l, t.out = l ++ s.out ∧ (getCl t c).wseq % 65536 = ((getCl s c).wseq + weightOuts c l) % 65536
    ∧ (getCl t c).aseq % 65536 = ((getCl s c).aseq + activationOuts c l) % 65536

/-! ## Dictionary requests -/

/-- The requester's own path is not free: its window channel is busy, or the port is off the bus. -/
def pathBusy (r : Requester) (s : State) : Bool :=
  match r with
  | .win c => (getWin s c).busy
  | .can _ => s.dict.busOff

/-- Nothing stands before the next request on the dictionary path: no buffered request (R412), no residue mismatch (check 2), no bad
packet (R333). -/
def NothingAhead (s : State) : Prop := s.dict.canBuf = [] ∧ s.dict.residueBad = none ∧ s.dict.packetBad = false

/-- A requester's write is served now: power is there, the firmware runs, no fatal state, the path is free. -/
def PathFree (r : Requester) (s : State) : Prop :=
  powered s = true ∧ romServes s = false ∧ s.faults.fatal = false ∧ pathBusy r s = false ∧ NothingAhead s

/-- The same for a whole write of object k: no segmented write of it is open. -/
def WriteServed (r : Requester) (k : Nat) (s : State) : Prop := PathFree r s ∧ openOf s k = none

/-- A shared or presence-qualified object may be written: no split follower (R313). -/
def MayShare (s : State) : Prop := s.twin.role ≠ .splitFollower

/-- A presence-qualified write passes its checks (R417, R390). -/
def PresenceServed (r : Requester) (k : Nat) (s : State) : Prop :=
  WriteServed r k s ∧ MayShare s ∧ presenceOpen s = true ∧ flashOk s = true

/-- RN_RX (R409) counts every request. -/
def rxKey : Nat := key 0x2050 7

/-- R305: the paired twin that holds authority, or the other. -/
def PairedRole (r : Role) : Prop := r = .pairedAuth ∨ r = .pairedFollower

/-- A twin that decides shared writes alone, with no frame to wait for (R306, R313). -/
def DecidesAlone (s : State) : Prop :=
  (s.twin.role = .splitAuth ∨ s.twin.role = .sole) ∧ s.twin.auth = true ∧ s.twin.mirroring = false ∧ s.twin.silent = false
  ∧ s.twin.shared = [] ∧ framesRun s = false

/-- An object that a driver writes as it stands (R408): it exists, is RW, has n bytes, admits the value, is no selector, no scale
register window and not EPOCH_ACQ, and is not busy. -/
def PlainWrite (k n v : Nat) (s : State) : Prop :=
  (∃ f, findFam s.hw k = some f ∧ f.acc = .rw ∧ f.len = n) ∧ inRange s .rw k v = true ∧ isSelector k = false ∧ k ≠ key 0x6100 3
  ∧ ¬ (0x4100 ≤ k / 256 ∧ k / 256 < 0x4120) ∧ objBusy s k = false

/-- A request frame that the management port takes up and the controller serves at once: addressed to this node, nothing ahead of it,
nothing kept for its sender. -/
def RequestTaken (m : CanReq) (s : State) : Prop :=
  powered s = true ∧ s.dict.busOff = false ∧ m.dst = ownNode s ∧ m.dst ≠ 0x7F ∧ m.service = none ∧ m.waits = false ∧ m.vote = .agree
  ∧ NothingAhead s ∧ s.dict.kept.find? (fun e => e.1 == m.src.toNat) = none ∧ m.payload.length ≤ 64

/-! ## Time that passes -/

/-- The clusters have nothing that a tick completes: the lanes wait for no container (R30), and no drain has a container to complete (R20). -/
def LanesDone (s : State) : Prop := ∀ c, (getCl s c).lane = [] ∧ ∀ e ∈ (getCl s c).tiles, e.2.toPack = []

/-- Nothing of the clusters is due at a tick: they have nothing to complete, and no instruction waits for a held tile (R210). -/
def NothingDue (s : State) : Prop := LanesDone s ∧ ∀ q, hazardWaits s q = false

/-! ## Links at rest -/

/-- No transfer is in progress, and no port and no ordering unit holds a container on its way. -/
def LinksQuiet (s : State) : Prop :=
  (∀ q, (getSeq s q).transfer = none) ∧ s.eaHold = []
  ∧ ∀ p, (getPort s p).hold = [] ∧ (getPort s p).window = [] ∧ (getPort s p).chOut = []

/-- So it is, and no received container has an open verdict. -/
def LinksIdle (s : State) : Prop := LinksQuiet s ∧ ∀ p, (getPort s p).rxOpen = []

/-- No cluster's pack unit holds a container. -/
def PacksIdle (s : State) : Prop := ∀ c, (getCl s c).packQueue = []

/-! ## Invariants -/

/-- The dictionary's map in canonical form: keys rising, no object listed at its default. -/
def objsCanonical (s : State) : Bool := risingFrom none s.objs && s.objs.all (fun e => e.2 != objDefault s.hw e.1)

/-- The canonical form of the tables of State that hold the objects, the sequencers, the clusters, the ports, the queues, the stacks
and the fault sources. -/
def Canonical (s : State) : Prop :=
  objsCanonical s = true ∧ Tab.wf .idle s.seqs = true ∧ Tab.wf .idle s.clusters = true ∧ Tab.wf .down s.ports = true
  ∧ Tab.wf .empty s.queues = true ∧ Tab.wf stackDefault s.stackTab = true ∧ Tab.wf .clear s.faults.src = true

/-! ## The datapath -/

/-- The change touches the datapath alone: sequencers, clusters, ports, queues, ordering units, objects, reports, outputs, and of the
plan its doorbells, stream flags, withheld records and digest tensors. Configuration, clock, start, dictionary, presence, the
collector's source states, fatal state and repairs, history, tests, plan mode and images, thermal state, twin and queue of
commands are as before. -/
def DatapathOnly (s t : State) : Prop :=
  t = { s with
    objs := t.objs, seqs := t.seqs, clusters := t.clusters, ports := t.ports, eaHold := t.eaHold, ord0 := t.ord0, ord1 := t.ord1
    queues := t.queues, out := t.out, freeIdx := t.freeIdx
    faults := { s.faults with reports := t.faults.reports, overran := t.faults.overran }
    plan := { s.plan with bells := t.plan.bells, streams := t.plan.streams, withheld := t.plan.withheld
                          digestTensor := t.plan.digestTensor } }

/-- The same of a queue's read, which may also find a row of the queue failing (R367). -/
def QueueReadFrame (s t : State) : Prop := DatapathOnly { s with faults := { s.faults with failing := t.faults.failing } } t

/-- The same of a read of a queue of requests, reports, frames or commands (0x0B0 and up), which may also find a packet of the dictionary
path bad (R333). -/
def RequestQueueFrame (s t : State) : Prop :=
  QueueReadFrame { s with dict := { s.dict with packetBad := t.dict.packetBad, canBuf := t.dict.canBuf } } t

end Sys2Proof.Machine
end

