-- ==== Sys2Proof/Certificates/Slice0/Obligations.lean ====
section
/-! DEFINITION. The statements for the provers: the step, the walk instructions, the plan, the clusters, queues and islands, the link,
the twin, the collector, start, the dictionary, pins and time. -/

open Sys2Proof Sys2Proof.Machine

/-! ## The step -/

/-- A step runs the command at the front of the queue on the state with the queue's rest. -/
def Obligations.StepRunsFront : Prop :=
  ∀ (c : Instr) (rest : List Instr) (s : State), step { s with pending := c :: rest } = exec c { s with pending := rest }

/-- With no command waiting one plan tick passes while power is present (log 6: the model's choice); every thirtieth tick is an edge
of REF_CLK, at which the time base advances by 10 ns unless a synchronisation holds it (R221, R444). Between the ends of the islands' 1 µs
windows (R323) nothing else changes; at one, ISLAND_MHZ of the islands may, while a frame runs, and what the islands noted of the window
begins again. A buffered request is served first
(R412), and the clusters do what is due at the tick; while an instruction waits for a held tile its HAZARD_CYCLES counts each tick (R210).
Of a window that ends, ISLAND_MHZ's average clock is a free value where cycles were stretched (log 142). -/
def Obligations.IdleTick : Prop :=
  ∀ s : State, s.pending = [] →
    (s.boot.phase = .off → step s = .next s)
    ∧ (∀ b r, s.boot.phase ≠ .off → s.dict.canBuf = b :: r →
        step s = .next (clusterTicks (tickStep (serveCan b { s with dict := { s.dict with canBuf := r } }))))
    ∧ (s.boot.phase ≠ .off → s.dict.canBuf = [] → s.faults.fatal = false → LanesDone s → Tab.wf .idle s.seqs = true →
        ∀ q, hazardWaits s q = true → ∃ t, step s = .next t ∧ Advanced (key 0xA035 (q + 1)) 1 s t)
    ∧ (s.boot.phase ≠ .off → s.dict.canBuf = [] → s.faults.fatal = true ∨ NothingDue s →
      ∃ t, step s = .next t ∧ t = { s with clock := t.clock, objs := t.objs, islands := t.islands, freeIdx := t.freeIdx }
        ∧ ((s.clock.tick + 1) % 3000 ≠ 0 → t = { s with clock := t.clock })
        ∧ (framesRun s = false → t.objs = s.objs)
        ∧ OnlyObjects ((List.range 40).map (fun i => key 0x2020 (i + 1))) s t
        ∧ t.clock.tick = s.clock.tick + 1
        ∧ (s.clock.sub + 1 ≠ 30 → t.clock.sub = s.clock.sub + 1 ∧ t.clock.time = s.clock.time ∧ t.clock.hold = s.clock.hold)
        ∧ (s.clock.sub + 1 = 30 → t.clock.sub = 0
            ∧ (s.clock.hold = 0 → t.clock.time = (s.clock.time + 10) % 2 ^ 64 ∧ t.clock.hold = 0)
            ∧ (s.clock.hold ≠ 0 → t.clock.time = s.clock.time ∧ t.clock.hold = s.clock.hold - 1)))

/-- The block before its first cold start: no power, every object at its Default, every output pin inactive, nothing waiting, every
table in canonical form. -/
def Obligations.ResetLeaves : Prop :=
  State.reset.boot.phase = .off ∧ (∀ k, obj State.reset k = objDefault State.reset.hw k) ∧ State.reset.pending = []
  ∧ pinFaultCont State.reset = false ∧ pinFaultFatal State.reset = false ∧ pinIrqFault State.reset = false
  ∧ pinIrqCpl State.reset = false ∧ pinIrqNote State.reset = false ∧ (∀ k, pinXoff State.reset k = false)
  ∧ Canonical State.reset

/-- A walk instruction with a reserved value in a field is never executed (R226). Another command that names a cluster, lane, port, island,
queue, sequencer or source that the configuration does not have (R9, R421) has nothing to act on. That such a command stops, and the names
of the two stops, are the model's choice (logs 4 and 23); that no other command stops is ConfigurationFixed. -/
def Obligations.StopsByName : Prop :=
  (∀ (i : Instr) (s : State), i.reservedFree = false → exec i s = .fault .illFormed)
  ∧ (∀ (i : Instr) (s : State), i.reservedFree = true → unitsOk s.hw i = false → exec i s = .fault .unitAbsent)

/-! ## Walk words -/

/-- Every walk instruction without reserved values is read back from its word, with every operand. -/
def Obligations.WalkWordRoundTrip : Prop :=
  ∀ (i : Instr) (w : Word), i.reservedFree = true → encodeWalk i = some w → ∃ q, decodeWalk q w = some i

/-- Words written out from Table 9.2: the spec's worked FETCH and GATE, an END, a NOP, a WAITT and a LOOP; and words that no
sequencer executes: an unlisted opcode, an unassigned bit, XSEL where there is none, a reserved value. -/
def Obligations.WalkWordsOfTheSpec : Prop :=
  decodeWalk 5 0x4207C00A80060005 = some (.fetch 5 2 124 2688 384 5) ∧ decodeWalk 5 0x1D30000000000000 = some (.gate 5 1 3 0)
  ∧ decodeWalk 1 0 = some (.endProg 1) ∧ decodeWalk 1 0x0400000000000000 = some (.nop 1)
  ∧ decodeWalk 1 0x0800000000000064 = some (.waitt 1 100) ∧ decodeWalk 1 0x1400000000030002 = some (.loop 1 3 2)
  ∧ decodeWalk 1 0x2800000000000000 = none ∧ decodeWalk 1 0x0400000000000001 = none ∧ decodeWalk 1 0x0500000000000000 = none
  ∧ decodeWalk 1 0x1400000000000002 = none

/-! ## The whole machine -/

/-- Seven tables of State stay in canonical form: the object map, the sequencers, the clusters, the ports, the queues, the memory stacks and
the fault sources. Every step keeps it. (The nested tables and those of the islands, notes, plan and packages are not meant.) -/
def Obligations.TablesStayCanonical : Prop := ∀ s t : State, Canonical s → step s = .next t → Canonical t

/-- The fatal state ends only when power goes (R370): no command but POWER_FAIL leaves it, nor does the time that passes on an empty queue,
and COLD_START needs power to have gone: while the state is fatal no command but POWER_FAIL takes power away. -/
def Obligations.FatalStays : Prop :=
  (∀ (c : Instr) (s t : State), s.faults.fatal = true → s.boot.phase ≠ .off → c ≠ .powerFail → exec c s = .next t →
    t.faults.fatal = true ∧ t.boot.phase ≠ .off)
  ∧ (∀ s : State, s.faults.fatal = true → s.boot.phase ≠ .off → s.pending = [] →
    ∃ t, step s = .next t ∧ t.faults.fatal = true ∧ t.boot.phase ≠ .off)

/-- In the fatal state the dictionary refuses every write (R370, R408): the row of every write, whole or in segments, to whatever object,
leaves all objects but the port's two counters, and all else but the dictionary's own state, as they were. The code is 0x07: a window
channel shows it, and a WRITE is answered with it (served by the controller: the ROM responder, R393, answers busy). -/
def Obligations.FatalRefusesWrites : Prop :=
  ∀ (r : Requester) (v : BitVec 16) (b : BitVec 8) (l off total : BitVec 32) (w : Word) (n : BitVec 6) (e : BitVec 128) (d : BitVec 384)
    (c : BitVec 5) (k : BitVec 24) (bytes : List Byte) (sub : BitVec 8) (last ch : Bool) (m : CanReq) (s : State),
    s.faults.fatal = true → NothingAhead s →
    let frame (t : State) : Prop := t = { s with objs := t.objs, dict := t.dict } ∧ OnlyObjects [key 0x2050 7, key 0x2050 9] s t
    let code7 (t : State) : Prop := (getWin t ch).busy = false ∧ (getWin t ch).error = 7
    (∀ i ∈ [Instr.planLoad r, .planActivate r, .planPause r, .planDiscard r, .epochWrite r v, .ackSource r v, .ackAll r b, .ackRecord r b,
           .force r l, .forceFatal r v, .keep r v, .watchSet r v, .histVoid r l, .histClear r b, .tcInstall r, .tcRemove r, .tcDiscard r,
           .epochAcq r v, .idOverride r v, .measExtend r b d, .fwCommitTrial r, .fwCommitSwap r, .fwConfirm r b, .objectWrite r k bytes,
           .regionWrite r n e, .retPageWrite r b w, .sfEntryWrite r c sub v, .twinAuthWrite r b, .irqEnableWrite r b,
           .tcLoad r total off bytes last, .fwLoad r total off bytes last],
      ∃ t, exec i s = .next t ∧ frame t
        ∧ (r = .win ch → powered s = true → romServes s = false → (getWin s ch).busy = false → bytes.length ≤ 64 → code7 t))
    ∧ (∀ i ∈ [Instr.winWriteSegment ch l off total bytes, .winWriteLast ch l off total bytes],
      ∃ t, exec i s = .next t ∧ frame t
        ∧ (powered s = true → romServes s = false → (getWin s ch).busy = false → winMalformed l off = false → code7 t))
    ∧ (∀ i ∈ [Instr.winAbort ch { sel := l, cmd := 2 }, .winAbort ch { sel := l, cmd := 3 }],
      ∃ t, exec i s = .next t ∧ frame t
        ∧ (powered s = true → romServes s = false → (getWin s ch).busy = false → winMalformed l (getWin s ch).off = false → code7 t))
    ∧ (RequestTaken m s → romServes s = false → 12 ≤ m.payload.length → payByte m.payload 3 ≤ 1 →
      exec (.write m) s = .next (replyError m (reqKey m) errFatal (payNum m.payload 8 4) (bump rxKey 1 s)))

/-- Every command that holds no reserved value and names only units that the configuration has (R9, R226, R421) answers a next state,
whatever the state: this is the model's choice for an event that the spec lets occur only in certain states, which then changes nothing
(logs 4, 16 and 23), and it says nothing of a command's own effect. No command changes which configuration the block is, nor the values fixed when it was instantiated (R5, R7), nor the queue of the
commands behind it. Completes: every constructor of Instr. -/
def Obligations.ConfigurationFixed : Prop :=
  (∀ (c : Instr) (s : State), c.reservedFree = true → unitsOk s.hw c = true →
    ∃ t, exec c s = .next t ∧ t.hw = s.hw ∧ t.pending = s.pending)
  ∧ (∀ (c : Instr) (s t : State), exec c s = .next t → t.hw = s.hw)

/-- The commands of the datapath touch the datapath alone; a queue's read may find a row of the queue failing as well (R367), and one of a
queue of requests, reports, frames or commands may find a packet of the dictionary path bad (R333). -/
def Obligations.DatapathFrame : Prop :=
  (∀ (q : BitVec 9) (flips : List (BitVec 72)) (word : Option (BitVec 72)) (s t : State), exec (.queueRead q flips word) s = .next t →
    RequestQueueFrame s t ∧ (q.toNat < 0xB0 → QueueReadFrame s t))
  ∧ (∀ (i : Instr) (s t : State),
    (match i with
      | .nop _ | .waitt _ _ | .waitd _ _ _ | .sig _ _ | .loop _ _ _ | .xop _ _ _ _ | .gate _ _ _ _ | .dmark _ _ _ _
      | .fetch _ _ _ _ _ _ | .xpw _ _ _ _ _ _ _ _ _ _ | .xpa _ _ _ _ _ _ _ _ | .flick _ _ _ _ _ _ _ _ | .topen _ _ _ _
      | .pack _ _ _ _ _ _ _ _ _ _ | .svec _ _ _ | .save _ _ _ | .restore _ _ _ _ | .scsave _ _ _ | .screst _ _ _
      | .send _ _ _ _ _ _ | .recv _ _ _ _ _ _ | .chorus _ _ _ _ _ _ | .latePoisonNotice _ _ _ _ | .partialResult _ _
      | .spadRmwReturn _ _ _ | .tileDrainReady _ _ _ | .tileRelease _ _ | .producerVerdict _ _ | .flickMaskRelease _ _
      | .flickVerifyResult _ _ _ | .fabricReadResponse _ _ _ | .fabricWriteDone _ | .eaDone _ _
      | .chorusCombine _ | .ceilingEnd _ | .laneRemap _ | .verdictOnlySend _ => True
      | .residueCheckFail site _ => site ≠ .dictionary
      | _ => False) →
    exec i s = .next t → DatapathOnly s t)

/-! ## Control instructions -/

/-- NOP, WAITT, WAITD, XOP, GATE and DMARK (R225, R227, R230, R231): each issues at its tick, goes on to the next word, and changes
the registers it names; the prefixes of the word before are spent. All else is as before.
Completes: NOP, WAITT, WAITD, XOP, GATE, DMARK. -/
def Obligations.ControlInstructions : Prop :=
  ∀ (q : BitVec 6) (s : State) (T : BitVec 28) (db : BitVec 6) (V : BitVec 16) (reg : BitVec 2) (add : Bool) (v : BitVec 20)
    (x : BitVec 2) (pass : BitVec 4) (n : BitVec 13) (ds : BitVec 6) (ord : BitVec 20),
    ∀ i ∈ [Instr.nop q, .waitt q T, .waitd q db V, .xop q reg add v, .gate q x pass n, .dmark q x ds ord], Issues i q s →
      ∃ t, exec i s = .next t ∧ (let a := getSeq s q.toNat
        let b := getSeq t q.toNat
        t = { s with seqs := t.seqs, objs := t.objs } ∧ OnlySeq q.toNat s t ∧ OnlyObjects [slipKey q.toNat] s t
        ∧ Advanced (slipKey q.toNat) (lateBy s q.toNat .free) s t
        ∧ b.lastIssue = max (plannedAt s q.toNat .free) (s.clock.tick - a.start)
        ∧ (b.pc, b.loops) = advancePc a.pc a.loops
        ∧ b.waitTarget = (if i = .waitt q T then some T.toNat else none)
        ∧ b.waitBell = (if i = .waitd q db V then some (db.toNat, V.toNat) else none)
        ∧ b.gate = (if i = .gate q x pass n then some (pass.toNat, effective a x 13 n.toNat) else none)
        ∧ b.dmark = (if i = .dmark q x ds ord then some (ds.toNat, effective a x 20 ord.toNat) else none)
        ∧ b.x1 = (if i = .xop q reg add v ∧ reg = 1 then (if add then a.x1 + v else v) else a.x1)
        ∧ b.x2 = (if i = .xop q reg add v ∧ reg = 2 then (if add then a.x2 + v else v) else a.x2)
        ∧ b.x3 = (if i = .xop q reg add v ∧ reg = 3 then (if add then a.x3 + v else v) else a.x3)
        ∧ b = { a with pc := b.pc, loops := b.loops, lastTick := b.lastTick, lastIssue := b.lastIssue, waitTarget := b.waitTarget
                       waitBell := b.waitBell, waitUnit := none, gate := b.gate, dmark := b.dmark, x1 := b.x1, x2 := b.x2, x3 := b.x3 })

/-- LOOP opens a loop over the L words that follow it (R232), and END ends the slot program and every open loop, a completion record
falling due where the slot's CPL is set (R225, R239, R246); of a test entry the tick is kept (R240).
Completes: LOOP, END. -/
def Obligations.LoopAndEnd : Prop :=
  (∀ (q : BitVec 6) (n : BitVec 16) (l : BitVec 13) (s : State), Issues (.loop q n l) q s →
    ∃ t, exec (.loop q n l) s = .next t ∧ (t = { s with seqs := t.seqs, objs := t.objs } ∧ OnlySeq q.toNat s t ∧ OnlyObjects [slipKey q.toNat] s t
      ∧ (getSeq t q.toNat).pc = (getSeq s q.toNat).pc + 1
      ∧ (getSeq t q.toNat).loops =
          { first := (getSeq s q.toNat).pc + 1, last := (getSeq s q.toNat).pc + l.toNat, left := n.toNat } :: (getSeq s q.toNat).loops))
  ∧ (∀ (q : BitVec 6) (s : State), Issues (.endProg q) q s →
    ∃ t, exec (.endProg q) s = .next t ∧ (let a := getSeq s q.toNat
      t = { s with seqs := t.seqs, objs := t.objs, dict := t.dict, out := t.out } ∧ OnlySeq q.toNat s t
      ∧ (getSeq t q.toNat).running = false ∧ (getSeq t q.toNat).loops = []
      ∧ (getSeq t q.toNat).ended = a.ended ++ (if slotCpl (slotBits s q.toNat) && slotKind (slotBits s q.toNat) == 0 then
          [{ stream := slotStream (slotBits s q.toNat), tenant := slotTenant (slotBits s q.toNat), firstOp := a.firstOp, upTo := a.nextOp
             overrun := a.overrun, inFrame := a.inFrame, yielded := a.yielded }]
          else [])
      ∧ (getSeq t q.toNat).testEnds = (if slotKind (slotBits s q.toNat) = 1 then s.clock.tick :: a.testEnds else a.testEnds)))

/-- SIG (R231): with every earlier operation of the slot complete the doorbell counts one more, saturating; with one outstanding
it stays, and the SIG waits. STEP (R95, R138): the scale file of every cluster takes its step boundary, and the digest interval
counts one step more.
Completes: SIG, STEP. -/
def Obligations.SigAndStep : Prop :=
  (
    ∀ (q db : BitVec 6) (s : State), Issues (.sig q db) q s → (getSeq s q.toNat).sigs = [] →
      ∃ t, exec (.sig q db) s = .next t ∧ (let a := getSeq s q.toNat
        let waits := a.ops.any (fun o => a.firstOp ≤ o.1 && o.1 < a.nextOp)
        t = { s with seqs := t.seqs, objs := t.objs, plan := { s.plan with bells := t.plan.bells } } ∧ OnlySeq q.toNat s t
        ∧ OnlyObjects [slipKey q.toNat] s t ∧ IssuedFrom q.toNat .free s t
        ∧ (∀ b, tget 0 t.plan.bells b = if b = db.toNat ∧ waits = false then min (tget 0 s.plan.bells b + 1) 65535 else tget 0 s.plan.bells b)
        ∧ (getSeq t q.toNat).sigs = (if waits then [(db.toNat, a.firstOp, a.nextOp)] else [])))
  ∧ (
    ∀ (q : BitVec 6) (s : State), Issues (.step q) q s →
      ∃ t, exec (.step q) s = .next t ∧ (t = { s with seqs := t.seqs, objs := t.objs, clusters := t.clusters, plan := { s.plan with digestSteps := s.plan.digestSteps + 1 } }
        ∧ OnlySeq q.toNat s t ∧ IssuedFrom q.toNat .free s t
        ∧ (∀ c, c < nClusters s.hw → getCl t c = { getCl s c with scale := (fileBoundary (scaleCfg s) (getCl s c).scale).1 }
            ∧ Advanced (key 0x4012 (c + 1)) (fileBoundary (scaleCfg s) (getCl s c).scale).2 s t)
        ∧ (∀ c, nClusters s.hw ≤ c → getCl t c = getCl s c)))

/-! ## Instructions of a cluster -/

/-- FETCH (R225, R230, R254): one whose neuron GATE skips moves nothing and counts the bytes not fetched; one whose containers are all
permitted and not withheld makes one fabric read for each, in container order: outstanding until its response, at most 512 at a time, the
others waiting behind them (R437). Completes: FETCH. -/
def Obligations.FetchReads : Prop :=
  ∀ (q : BitVec 6) (x : BitVec 2) (desc : BitVec 12) (off : BitVec 20) (slot : BitVec 14) (cnt : BitVec 10) (s : State),
    Issues (.fetch q x desc off slot cnt) q s →
      let c := q.toNat
      let g := gateOf s c
      let a := altUse s desc.toNat (effective (getSeq s c) x 20 off.toNat) (cnt.toNat + 1)
      let d := tensorOf s a.1
      let b := slotBits s c
      let e := regionEntry s (tdRgn d)
      (g.skip = true → ∃ t, exec (.fetch q x desc off slot cnt) s = .next t ∧ (t = { s with seqs := t.seqs, objs := t.objs } ∧ OnlySeq c s t ∧ OnlyObjects [slipKey c, key 0x5180 10] s t
        ∧ IssuedFrom c .fr s t ∧ Advanced (key 0x5180 10) (256 * a.2.2.1) s t))
      ∧ (g.skip = false →
        (∀ k, k < a.2.2.1 → ∃ stk w, tensorAccess s d (a.2.1 + k) (some (slotTenant b)) true false = .ok stk w
          ∧ (slotKind b = 1 ∨ rgDie e = true ∨ withholdCause s (slotClass b) stk = none)) →
        ∃ t, exec (.fetch q x desc off slot cnt) s = .next t ∧ (t = { s with seqs := t.seqs, objs := t.objs, clusters := t.clusters, out := t.out } ∧ OnlySeq c s t ∧ OnlyCluster c s t
          ∧ IssuedFrom c .fr s t
          ∧ getCl t c = { getCl s c with reads := (getCl t c).reads, readWait := (getCl t c).readWait }
          ∧ Requested c ((List.range a.2.2.1).map (fun k =>
              { use := .pad (runSlot (effective (getSeq s c) x 14 slot.toNat) k), addr := tdAddr d (a.2.1 + k), priv := rgPriv e,
                by_ := { q := c, op := (getSeq s c).nextOp }, stream := slotStream b, tenant := slotTenant b })) s t
          ∧ t.out.length = s.out.length + min a.2.2.1 (512 - (getCl s c).reads.length)))

/-- XPW and XPA (R122, R185, R187): a gated expansion of a skipped neuron with no verification due drives nothing, and changes its cluster
only where it marks its tile PREDICTED; any other that needs nothing now that a transfer is still filling (R30: the container of its first
E0, its tile's restore, its scale entries) issues, and the delivery sequence numbers of its cluster move on by one for each delivery it
drives. Where a later container of its run has still to come, or the lanes have other work to do first, its work waits in the lanes, in
order of issue. Completes: XPW, XPA. -/
def Obligations.Expansions : Prop :=
  (∀ (q : BitVec 6) (x : BitVec 2) (desc : BitVec 12) (slot : BitVec 14) (cnt : BitVec 10) (tile : BitVec 3) (path : BitVec 2)
      (tr kr : Bool) (col0 : BitVec 12) (s : State), Issues (.xpw q x desc slot cnt tile path tr kr col0) q s →
    ((gateOf s q.toNat).skip = true → gateVerify s q.toNat = none →
      ∃ t, exec (.xpw q x desc slot cnt tile path tr kr col0) s = .next t ∧ SkippedExpansion q.toNat tile.toNat s t)
    ∧ (let needs := laneNeeds s q.toNat (effective (getSeq s q.toNat) x 14 slot.toNat) (cnt.toNat + 1) (tdFormat (tensorOf s desc.toNat)) 0
      neededNow s needs = false → tileAwaited (getCl s q.toNat) tile.toNat = false →
      ∃ t, exec (.xpw q x desc slot cnt tile path tr kr col0) s = .next t ∧ (DatapathOnly s t ∧ OnlySeq q.toNat s t ∧ OnlyCluster q.toNat s t ∧ IssuedFrom q.toNat .ln s t ∧ Delivered q.toNat s t
        ∧ ((gateOf s q.toNat).skip = false → LanesTake q.toNat 0x11 needs s t))))
  ∧ (∀ (q : BitVec 6) (x : BitVec 2) (desc : BitVec 12) (slot : BitVec 14) (cnt : BitVec 10) (tile : BitVec 3) (row : BitVec 4)
      (dest : BitVec 2) (s : State), Issues (.xpa q x desc slot cnt tile row dest) q s →
    ((gateOf s q.toNat).skip = true → gateVerify s q.toNat = none →
      ∃ t, exec (.xpa q x desc slot cnt tile row dest) s = .next t ∧ SkippedExpansion q.toNat tile.toNat s t)
    ∧ (let a := altUse s desc.toNat 0 (cnt.toNat + 1)
      let slot0 := effective (getSeq s q.toNat) x 14 slot.toNat
      let needs := laneNeeds s q.toNat slot0 a.2.2.1 (tdFormat (tensorOf s a.1)) 0
      neededNow s needs = false → tileAwaited (getCl s q.toNat) tile.toNat = false →
      entriesNeeded (getCl s q.toNat) (tensorOf s a.1) slot0 a.2.2.1 = false →
      ∃ t, exec (.xpa q x desc slot cnt tile row dest) s = .next t ∧ (DatapathOnly s t ∧ OnlySeq q.toNat s t ∧ OnlyCluster q.toNat s t ∧ IssuedFrom q.toNat .ln s t ∧ Delivered q.toNat s t
        ∧ ((gateOf s q.toNat).skip = false → LanesTake q.toNat 0x12 needs s t))))

/-- The flick pass (R176, R184, R188, R181): FLICK makes a mask of its descriptor's neurons, none skipped by a fenced predictor, once its
containers have come (R30); its release takes the place of the pass's mask, skipping nothing where an input was poisoned, a residue check
failed or the predictor is fenced, and releases nothing while the pass waits for a container; the end of a sampled verification counts it,
and without a miss does nothing else.
Completes: FLICK, FLICK_MASK_RELEASE, FLICK_VERIFY_RESULT. -/
def Obligations.FlickPasses : Prop :=
  (∀ (q : BitVec 6) (x : BitVec 2) (pass : BitVec 4) (mode : BitVec 2) (fdesc : BitVec 8) (aslot gslot : BitVec 14) (rows : BitVec 4)
      (s : State),
    let c := q.toNat
    let fd := flickOf s fdesc.toNat
    let n := rows.toNat + 1
    Issues (.flick q x pass mode fdesc aslot gslot rows) q s →
    let needs := flickNeeds s c fd (effective (getSeq s c) x 14 aslot.toNat) (effective (getSeq s c) x 14 gslot.toNat) n
    neededNow s needs = false →
    entriesNeeded (getCl s c) (tensorOf s (fdAdesc fd)) (effective (getSeq s c) x 14 aslot.toNat) (n * fdAcnt fd) = false →
    fmtOf (tdFormat (tensorOf s (fdAdesc fd))) ≠ none → fmtOf (tdFormat (tensorOf s (fdGdesc fd))) ≠ none →
    ∃ t, exec (.flick q x pass mode fdesc aslot gslot rows) s = .next t ∧ (DatapathOnly s t ∧ OnlySeq c s t ∧ OnlyCluster c s t ∧ IssuedFrom c .ln s t
      ∧ LanesTake c 0x13 needs s t
      ∧ (∀ e ∈ (getCl s c).flickPasses, e.2.uid ≠ (getCl s c).nextPass + 1 → e ∈ (getCl t c).flickPasses)
      ∧ ∃ p : FlickPass, (getCl t c).flickPasses.find? (fun e => e.1 == pendingKey (getCl s c).flickPasses)
            = some (pendingKey (getCl s c).flickPasses, p)
        ∧ (p.waiting = false ↔ needs = [] ∧ (getCl s c).lane = []) ∧ p.pass = pass.toNat ∧ p.nbase = fdNbase fd ∧ p.ncount = fdNcount fd ∧ p.rows = n ∧ p.released = false
        ∧ p.mode = effectiveMode s (getCl s c) mode.toNat ∧ ((getCl s c).flickFenced = true → p.skip = 0)))
  ∧ (∀ (c : BitVec 5) (pass : BitVec 4) (s : State) (k : Nat) (p : FlickPass), c.toNat < nClusters s.hw →
    pendingPass (getCl s c.toNat) pass.toNat = some (k, p) →
    (p.waiting = true → exec (.flickMaskRelease c pass) s = .next s)
    ∧ (p.waiting = false → ∃ t, exec (.flickMaskRelease c pass) s = .next t ∧ (t = { s with clusters := t.clusters, objs := t.objs } ∧ OnlyCluster c.toNat s t
      ∧ (∃ p', releasedPass (getCl t c.toNat) pass.toNat = some p' ∧ p'.released = true ∧ p'.nbase = p.nbase ∧ p'.ncount = p.ncount
          ∧ p'.skip = (if p.poisoned || p.residueFail || (getCl s c.toNat).flickFenced then 0 else p.skip))
      ∧ Advanced (key 0x5180 1) 1 s t)))
  ∧ (∀ (c : BitVec 5) (pass : BitVec 4) (n : BitVec 13) (s : State) (p : FlickPass), c.toNat < nClusters s.hw →
    releasedPass (getCl s c.toNat) pass.toNat = some p → p.verify.contains n.toNat = true →
    ∃ t, exec (.flickVerifyResult c pass n) s = .next t ∧ (DatapathOnly s t ∧ OnlyCluster c.toNat s t ∧ Advanced (key 0x5180 4) 1 s t
      ∧ (verifyMiss p (((getCl s c.toNat).verify.find? (fun a => a.pass == pass.toNat && a.neuron == n.toNat)).getD
            { pass := pass.toNat, neuron := n.toNat, sums := [] }) = false →
          t.faults = s.faults ∧ OnlyObjects [key 0x5180 4] s t ∧ (getCl t c.toNat).tiles = (getCl s c.toNat).tiles)))

/-- TOPEN opens the tile of its descriptor in the lowest free entry (R206; that it is the lowest is the model's choice, log 24); the key rows
count no position (R448), and that their stored keys go too is the model's reading (log 25), behind the expansions that the lanes have still
to do (R30). A TOPEN over an open number abandons that tile first: its deliveries feed nothing, the plan hazard counts and the completion
status reports POISON (R206). One whose accumulators overlap those of a held tile, or that finds no free entry, waits; the hazard counts once
(R210). PACK closes the tile it names and keeps what it was asked (R225), an operation of one part (log 50), or, with no open tile of that
number, counts a plan hazard, and the completion status reports POISON (R218); it waits for a restore of the tile or of its scale entries
(R30). Completes: TOPEN, PACK. -/
def Obligations.TilesOpenAndClose : Prop :=
  (∀ (q : BitVec 6) (num : BitVec 3) (td : BitVec 12) (mode : BitVec 2) (s : State),
    let c := q.toNat
    let d := tileOf s td.toNat
    let new := tileNow s c num.toNat td.toNat mode.toNat
    let hazard (t : State) : Prop := Advanced (key 0xA034 (c + 1)) 1 s t ∧ (tget flagsDefault t.plan.streams (curStream s c)).hazard = true
    let opened (x : Tile) : Prop :=
      x.uid = (getCl s c).nextTile + 1 ∧ x.num = num.toNat ∧ x.named = true ∧ x.base = tlBase d ∧ x.rows = tlRows d ∧ x.cols = tlCols d
      ∧ x.stride = tlStride d ∧ x.xt = tlXt d ∧ x.touched = 0 ∧ x.poison = false ∧ x.closed = none ∧ x.keep = decide (mode = 1)
      ∧ (mode ≠ 2 → x.far = none) ∧ (mode = 2 → x.far = some (tensorOf s (tlFar d)))
    Issues (.topen q num td mode) q s →
    (∀ k, openTile (getCl s c) num.toNat = none → freeEntry (getCl s c) = some k →
      (getCl s c).tiles.any (fun e => tilesOverlap new e.2) = false →
      ∃ t, exec (.topen q num td mode) s = .next t ∧ (t = { s with seqs := t.seqs, objs := t.objs, clusters := t.clusters } ∧ OnlySeq c s t ∧ OnlyCluster c s t
        ∧ IssuedFrom c .free s t
        ∧ ((getCl s c).lane = [] → (getCl t c).key0 = KeyRow.empty ∧ (getCl t c).key1 = KeyRow.empty ∧ (getCl t c).lane = [])
        ∧ ((getCl s c).lane ≠ [] → (getCl t c).key0 = (getCl s c).key0 ∧ (getCl t c).key1 = (getCl s c).key1
            ∧ (getCl t c).lane.map (·.work) = (getCl s c).lane.map (·.work) ++ [.rows])
        ∧ ∃ x : Tile, (getCl t c).tiles = tins (getCl s c).tiles k x ∧ opened x))
    ∧ (∀ k u k', openTile (getCl s c) num.toNat = some (k, u) → (getSeq s c).waitUnit = none →
      let rest := withoutOpen (getCl s c) num.toNat
      freeEntry rest = some k' → rest.tiles.any (fun e => tilesOverlap new e.2) = false →
      ∃ t, exec (.topen q num td mode) s = .next t ∧ (DatapathOnly s t ∧ OnlySeq c s t ∧ OnlyCluster c s t ∧ IssuedFrom c .free s t ∧ hazard t
        ∧ (tget flagsDefault t.plan.streams (curStream s c)).poison = true
        ∧ (u.uid ≠ 0 → (∀ w ∈ (getCl t c).wrecs, w.tile ≠ u.uid) ∧ ∀ w ∈ (getCl t c).updates, w.tile ≠ u.uid)
        ∧ ∃ x : Tile, (getCl t c).tiles = tins (tdel (getCl s c).tiles k) k' x ∧ opened x))
    ∧ (openTile (getCl s c) num.toNat = none → (getSeq s c).waitUnit = none → mustWait (getCl s c) new = true →
      ∃ t, exec (.topen q num td mode) s = .next t ∧ (DatapathOnly s t ∧ OnlySeq c s t ∧ hazard t ∧ t.clusters = s.clusters
        ∧ getSeq t c = { getSeq s c with waitUnit := some (s.clock.tick, true) }))
    ∧ (∀ n, openTile (getCl s c) num.toNat = none → (getSeq s c).waitUnit = some (n, true) → mustWait (getCl s c) new = true →
      exec (.topen q num td mode) s = .next s))
  ∧ (∀ (q : BitVec 6) (x : BitVec 2) (num : BitVec 3) (desc : BitVec 12) (off : BitVec 20) (st pt so li : Bool) (port : BitVec 4)
      (s : State), let c := q.toNat
    Issues (.pack q x num desc off st pt so li port) q s → tileAwaited (getCl s c) num.toNat = false →
    entriesAwaited (getCl s c) (tensorOf s (altUse s desc.toNat (effective (getSeq s c) x 20 off.toNat) 0).1) = false →
    (∀ k u, openTile (getCl s c) num.toNat = some (k, u) → ∃ t, exec (.pack q x num desc off st pt so li port) s = .next t ∧ (let a := altUse s desc.toNat (effective (getSeq s c) x 20 off.toNat) 0
      t = { s with seqs := t.seqs, objs := t.objs, clusters := t.clusters } ∧ OnlySeq c s t ∧ OnlyCluster c s t ∧ IssuedFrom c .free s t
      ∧ getCl t c = { getCl s c with tiles := (getCl s c).tiles.map (fun e => if e.2.uid == u.uid then (e.1, closedBy e.2 {
          desc := a.1, off := a.2.1, stats := st, ptok := pt, stoch := so, link := if li then some port.toNat else none
          by_ := { q := c, op := (getSeq s c).nextOp }, stream := curStream s c, tenant := curTenant s c }) else e) }
      ∧ (getSeq t c).ops = (getSeq s c).ops ++ [((getSeq s c).nextOp, 1)]))
    ∧ (openTile (getCl s c) num.toNat = none → ∃ t, exec (.pack q x num desc off st pt so li port) s = .next t ∧ (t.clusters = s.clusters ∧ DatapathOnly s t ∧ IssuedFrom c .free s t ∧ Advanced (key 0xA034 (c + 1)) 1 s t
      ∧ (tget flagsDefault t.plan.streams (curStream s c)).poison = true ∧ (tget flagsDefault t.plan.streams (curStream s c)).hazard = true)))

/-- SVEC, SCSAVE and SAVE (R92, R105, R215): where every block of the area may be written, one write for each block joins the queue to
the fabric, in order; a SAVE reads its tile's accumulators row by row, and its first block is the tile's state block. Each waits for a
restore of what it reads (R30).
Completes: SVEC, SCSAVE, SAVE. -/
def Obligations.AreasAreWritten : Prop :=
  ∀ (q : BitVec 6) (desc area : BitVec 12) (num : BitVec 3) (s : State),
    let c := q.toNat
    let d := tensorOf s desc.toNat
    let ok (a n : Nat) : Prop := ∀ k, k < n → ∃ stk w, tensorAccess s a k (some (curTenant s c)) false true = .ok stk w
    let data (x : State) : List Block := (getCl x c).toWrite.map (·.data)
    let still (d : Nat) : Prop := entriesAwaited (getCl s c) d = false
    (Issues (.svec q desc area) q s → still d → ok (tensorOf s area.toNat) (ceilDiv (tdNent d) 128) →
      ∃ t, exec (.svec q desc area) s = .next t ∧ (t = { s with seqs := t.seqs, objs := t.objs, clusters := t.clusters, queues := t.queues, freeIdx := t.freeIdx }
        ∧ OnlySeq c s t ∧ OnlyCluster c s t ∧ OnlyObjects [slipKey c] s t ∧ IssuedFrom c .free s t
        ∧ getCl t c = { getCl s c with toWrite := (getCl t c).toWrite }
        ∧ data t = data s ++ (List.range (ceilDiv (tdNent d) 128)).map (vectorBlock (getCl s c) d)))
    ∧ (Issues (.scsave q desc area) q s → still d → ok (tensorOf s area.toNat) (ceilDiv (tdNent d) 4) →
      ∃ t, exec (.scsave q desc area) s = .next t ∧ (t = { s with seqs := t.seqs, objs := t.objs, clusters := t.clusters, queues := t.queues, freeIdx := t.freeIdx }
        ∧ OnlySeq c s t ∧ OnlyCluster c s t ∧ OnlyObjects [slipKey c] s t ∧ IssuedFrom c .free s t
        ∧ getCl t c = { getCl s c with toWrite := (getCl t c).toWrite }
        ∧ data t = data s ++ (List.range (ceilDiv (tdNent d) 4)).map (scaleBlock s.plan.cfg.scaleWindow (getCl s c) d)))
    ∧ (∀ k u, openTile (getCl s c) num.toNat = some (k, u) → Issues (.save q num desc) q s → saveWaits (getCl s c) num.toNat = false →
      tileAwaited (getCl s c) num.toNat = false →
      ok d (1 + ceilDiv (u.rows * u.cols) 32) →
      ∃ t, exec (.save q num desc) s = .next t ∧ (t = { s with seqs := t.seqs, objs := t.objs, clusters := t.clusters, queues := t.queues, freeIdx := t.freeIdx, out := t.out }
        ∧ OnlySeq c s t ∧ OnlyCluster c s t ∧ OnlyObjects [slipKey c, key 0xA035 (c + 1)] s t ∧ IssuedFrom c .free s t
        ∧ t.out = (tileReads u).reverse.map (fun x => .spadRead c x.1 x.2) ++ s.out
        ∧ getCl t c = { getCl s c with toWrite := (getCl t c).toWrite }
        ∧ ∃ l, data t = data s ++ stateBlock u u.tenant :: l ∧ l.length = ceilDiv (u.rows * u.cols) 32))

/-- RESTORE and SCREST (R105, R216): where every block may be read, each block is requested, in order (R437); RESTORE opens its tile. That it
takes its entry at its issue (log 180), and the tile's geometry from TDESC (log 47), is the model's reading.
Completes: RESTORE, SCREST. -/
def Obligations.AreasAreRead : Prop :=
  ∀ (q : BitVec 6) (num : BitVec 3) (desc td : BitVec 12) (s : State),
    let c := q.toNat
    let b := slotBits s c
    let ok (a n : Nat) : Prop := ∀ k, k < n → ∃ stk w, tensorAccess s a k (some (slotTenant b)) true true = .ok stk w
    (∀ k, Issues (.restore q num desc td) q s → freeEntry (getCl s c) = some k →
      ((getCl s c).tiles.any (fun e => tilesOverlap (tileNow s c num.toNat td.toNat 1) e.2)) = false →
      ok (tensorOf s desc.toNat) (1 + ceilDiv (tlRows (tileOf s td.toNat) * tlCols (tileOf s td.toNat)) 32) →
      ∃ t, exec (.restore q num desc td) s = .next t ∧ (t = { s with seqs := t.seqs, objs := t.objs, clusters := t.clusters, out := t.out } ∧ OnlySeq c s t ∧ OnlyCluster c s t
        ∧ (getCl t c).tiles = tins (getCl s c).tiles k (tileNow s c num.toNat td.toNat 1)
        ∧ RequestedFor c ((List.range (1 + ceilDiv (tlRows (tileOf s td.toNat) * tlCols (tileOf s td.toNat)) 32)).map
            (ReadFor.restore ((getCl s c).nextTile + 1))) s t))
    ∧ (Issues (.screst q desc td) q s →
      ok (tensorOf s td.toNat) (ceilDiv (tdNent (tensorOf s desc.toNat)) 4) →
      ∃ t, exec (.screst q desc td) s = .next t ∧ (let d := tensorOf s desc.toNat
        t = { s with seqs := t.seqs, objs := t.objs, clusters := t.clusters, out := t.out } ∧ OnlySeq c s t ∧ OnlyCluster c s t
        ∧ (getCl t c).scale = (getCl s c).scale ∧ IssuedFrom c .fr s t
        ∧ RequestedFor c ((List.range (ceilDiv (tdNent d) 4)).map
            (ReadFor.scale (tdEntry0 d) (tdNent d) (tdTseq d) (tdB d) (qmaxOf (tdFormat d)))) s t))

/-- SEND, RECV and CHORUS begin the transfer their descriptor states (R276); on a port that is not UP it sends and receives nothing
(R290). A SEND of filled pad slots and a CHORUS of combined containers that fit one frame and the window leave in one data frame (R269,
R273, R281); a RECV claims the channel's first container for its pad slot (R277, R282). CEILING_END ends it: the positions not received
count, and the stream reports POISON (R278). Completes: SEND, RECV, CHORUS, CEILING_END. -/
def Obligations.Transfers : Prop :=
  (∀ (q : BitVec 6) (x : BitVec 2) (xd : BitVec 12) (cnt : BitVec 10) (slot : BitVec 14) (off : BitVec 20) (s : State),
    (∀ j, (getSeq s j).transfer = none) →
    let d := transferOf s xd.toNat
    let p := xdPort d
    let n := cnt.toNat + 1
    let slot0 := effective (getSeq s q.toNat) x 14 slot.toNat
    let up := (getPort s p).st = 2
    (∀ i ∈ [Instr.send q x xd cnt slot off, .recv q x xd cnt slot off, .chorus q x xd cnt slot off], Issues i q s →
      ∃ t, exec i s = .next t ∧ (DatapathOnly s t ∧ OnlySeq q.toNat s t ∧ IssuedFrom q.toNat .lk s t
        ∧ ∃ r : Transfer, (getSeq t q.toNat).transfer = some r ∧ r.kind = xdKind d ∧ r.port = p ∧ r.channel = xdChannel d
          ∧ r.peer = xdPeer d ∧ r.tenant = xdTenant d ∧ r.slot = slot0
          ∧ r.off = effective (getSeq s q.toNat) x 20 off.toNat ∧ r.total = n ∧ r.done ≤ n ∧ (r.dead = true ↔ ¬ up)
          ∧ (¬ up → r.done = 0 ∧ t = { s with seqs := t.seqs, objs := t.objs } ∧ OnlyObjects [slipKey q.toNat] s t)))
    ∧ (∀ i ∈ [Instr.send q x xd cnt slot off, .chorus q x xd cnt slot off], Issues i q s → 32 ≤ q.toNat → q.toNat < 32 + nPorts s.hw →
      up → s.plan.testSlot = false → n ≤ 32 → (getPort s p).window.length + n ≤ 64 →
      ((xdKind d = 0 ∧ ∀ k, k < n → slotAwaited (getCl s (physicalOf s (xdCluster d))) (runSlot slot0 k) = false)
        ∨ (xdKind d = 5 ∧ xdPeer d ≠ instanceId s ∧ n ≤ (getPort s p).chOut.length ∧ n ≤ (getPort s p).chPaired)) →
      ∃ t, exec i s = .next t ∧ (∃ f tci src r, t.out = .frame p f tci src :: s.out ∧ f.containers.length = n
        ∧ (getSeq t q.toNat).transfer = some r ∧ r.done = n
        ∧ (getPort t p).txC = ((getPort s p).txC + n) % 65536 ∧ (getPort t p).txF = ((getPort s p).txF + 1) % 65536))
    ∧ (∀ (pr : Nat) (e : RxItem), Issues (.recv q x xd cnt slot off) q s → 32 ≤ q.toNat → q.toNat < 32 + nPorts s.hw →
      up → s.plan.testSlot = false → xdKind d = 2 → n = 1 → rxFirst s (xdChannel d) = some (pr, e) → e.dropped = false →
      queueFull s (0x40 + physicalOf s (xdCluster d)) = false →
      ∃ t, exec (.recv q x xd cnt slot off) s = .next t ∧ (∃ r, (getSeq t q.toNat).transfer = some r ∧ r.done = 1
        ∧ (getPort t pr).buf.length + 1 = (getPort s pr).buf.length
        ∧ (getCl t (physicalOf s (xdCluster d))).toPad = (getCl s (physicalOf s (xdCluster d))).toPad ++
            [{ slot := runSlot slot0 0, pend := if e.verdict = .unsettled then some (pr, e.seq) else none, poison := false
               retracted := false, port := pr, by_ := { q := q.toNat, op := (getSeq s q.toNat).nextOp }, stream := r.stream }])))
  ∧ (∀ (q : BitVec 6) (s : State) (r : Transfer), seqExists s.hw q.toNat = true →
    (getSeq s q.toNat).transfer = some r → r.port < 16 → (∀ c ∈ s.plan.map, c < 32) →
    ∃ t, exec (.ceilingEnd q) s = .next t ∧ (DatapathOnly s t ∧ (getSeq t q.toNat).transfer = none
      ∧ (r.done < r.total → (tget flagsDefault t.plan.streams r.stream).poison = true
          ∧ (r.kind = 2 ∨ r.kind = 3 → Advanced (lk r.port 20) (r.total - r.done) s t))))

/-! ## The plan -/

/-- PLAN_CMD (R245): 0x01 begins a load; 0x02 switches to the staged plan at a frame start, or, whenever no plan is running or paused, arms
the first frame instant at least 10 µs away (the flash must be usable, R390: log 151); 0x03 pauses a running plan; 0x04 discards what is staged. That a load drops the staged
image with the switch or the armed instant that waits for it is the model's choice (log 36), and that it captures the configuration
objects when it begins is its reading (log 56). Completes: PLAN_LOAD, PLAN_ACTIVATE, PLAN_PAUSE, PLAN_DISCARD. -/
def Obligations.PlanCommands : Prop :=
  ∀ (r : Requester) (s : State), WriteServed r (planKey 2) s → s.boot.phase = .ready → s.plan.stage ≠ .loading →
    let dropped (st : StageMode) : Plan := { s.plan with
      stage := st, staged := none, switchPending := false, mode := if s.plan.mode == .armed then .none else s.plan.mode }
    let frame (ks : List Nat) (t : State) : Prop := t = { s with plan := t.plan, objs := t.objs, dict := t.dict } ∧ OnlyObjects (rxKey :: ks) s t
    (∃ t, exec (.planLoad r) s = .next t ∧ (t.plan = { dropped .loading with stagedCfg := captureCfg s } ∧ obj t (planKey 7) = 0 ∧ frame [planKey 7] t))
    ∧ (∃ t, exec (.planDiscard r) s = .next t ∧ (t.plan = dropped .empty ∧ obj t (planKey 7) = 0 ∧ frame [planKey 7] t))
    ∧ (framesRun s = true → ∃ t, exec (.planPause r) s = .next t ∧ (frame [] t ∧ t.plan = (if s.plan.mode = .running then { s.plan with pausePending := true } else s.plan)))
    ∧ (∀ im, s.plan.staged = some im → flashOk s = true → ∃ t, exec (.planActivate r) s = .next t ∧ (frame [] t ∧ t.plan =
        (if framesRun s = true then { s.plan with switchPending := true }
         else { s.plan with mode := .armed, armedFrame := (firstInstant s im.frameLen).1, armedAt := (firstInstant s im.frameLen).2 })))

/-- PLAN_LOAD_COMPLETE (R237, R245, R254, R257): the image that passes the checks is staged under its identifier; the first check that
fails gives the refusal's code and location; a block that reads uncorrectable refuses the image and raises a memory fault; a block whose
read is refused refuses it too, with a region fault or a retired-page count. Which blocks are read (log 143), that a reserved bit is check
0x02 (log 54), and the order within a check (log 55), are the model's reading. Completes: PLAN_LOAD_COMPLETE. -/
def Obligations.PlanLoadCompletes : Prop :=
  ∀ (image : List Block) (u : Option Nat) (s : State), s.plan.stage = .loading → s.faults.fatal = false →
    let base := obj s (planKey 1)
    let n := imageReads (imageNum image)
    let im := parseImage base (imageNum image)
    let whole := firstRefused s base n = none ∧ ∀ b, u = some b → n ≤ b
    (whole → loadFail s base (imageNum image) im = none →
      ∃ t, exec (.planLoadComplete image u) s = .next t ∧ (t = { s with plan := { s.plan with stage := .staged, staged := some im }, objs := t.objs }
        ∧ OnlyObjects [planKey 7] s t ∧ obj t (planKey 7) = im.planId))
    ∧ (∀ f, whole → loadFail s base (imageNum image) im = some f →
      ∃ t, exec (.planLoadComplete image u) s = .next t ∧ (t = { s with plan := t.plan, objs := t.objs } ∧ t.plan.stage = .refused ∧ t.plan.staged = none ∧ t.plan.active = s.plan.active
        ∧ obj t (planKey 4) = f.1 ∧ obj t (planKey 5) = f.2))
    ∧ (∀ b, u = some b → b < n → (∀ r, firstRefused s base n = some r → b < r.1) →
      ∃ t, exec (.planLoadComplete image u) s = .next t ∧ (t.plan.stage = .refused ∧ t.plan.staged = none ∧ obj t (planKey 4) = 1
        ∧ ∃ x : Report, t.faults = { s.faults with reports := s.faults.reports ++ [x] } ∧ x.d.source = 0x900 ∧ x.d.cls = .contained
          ∧ x.d.access = 6 ∧ x.d.addr = BitVec.ofNat 48 (base + 256 * b)))
    ∧ (∀ r, firstRefused s base n = some r → (∀ b, u = some b → r.1 ≤ b) →
      ∃ t, exec (.planLoadComplete image u) s = .next t ∧ (t.plan.stage = .refused ∧ t.plan.staged = none ∧ obj t (planKey 4) = 1
        ∧ (r.2 = .retired → t.faults = s.faults ∧ Advanced (key 0x3070 2) 1 s t)
        ∧ (r.2 = .refused → Advanced (key 0x3070 1) 1 s t
          ∧ ∃ x : Report, t.faults = { s.faults with reports := s.faults.reports ++ [x] } ∧ x.d.source = 0x900 ∧ x.d.cls = .contained
            ∧ x.d.access = 4 ∧ x.d.addr = BitVec.ofNat 48 (base + 256 * r.1))))

/-- ARMED_ACTIVATION (R243, R245): at the armed instant the staged plan becomes the active one and its frame begins, or the checks
marked A refuse it. (No row waits to be remapped at this frame start.) That the configuration read at its load is in force from now on is the
model's reading (log 56).
Completes: ARMED_ACTIVATION. -/
def Obligations.ArmedPlanStarts : Prop :=
  ∀ (s : State) (im : Image), s.plan.mode = .armed → s.faults.fatal = false → s.plan.staged = some im → s.faults.failing = [] →
    let s0 := { s with plan := { s.plan with mode := .none } }
    (∀ f, activationFail s0 im = some f → ∃ t, exec .armedActivation s = .next t ∧ (t.plan.mode = .none ∧ t.plan.stage = .refused ∧ t.plan.staged = none ∧ obj t (planKey 4) = f.1 ∧ obj t (planKey 5) = f.2))
    ∧ (activationFail s0 im = none → ∃ t, exec .armedActivation s = .next t ∧ (t.plan.mode = .running ∧ t.plan.active = some im ∧ t.plan.staged = none ∧ t.plan.stage = .empty ∧ t.plan.frame = s.plan.armedFrame
      ∧ t.plan.frameTick = s.clock.tick ∧ t.plan.bells = [] ∧ t.plan.cfg = s.plan.stagedCfg ∧ obj t (planKey 6) = im.planId))

/-- FRAME_START, the links at rest (R222, R231, R244, R245, R306, R316, R347, R367): of a plan that goes on the next frame begins now; doorbells
are cleared and the withheld records of the frame before are gone. A pending switch takes the staged plan into force where the checks marked A
pass, and else refuses it; a pending pause, a fence's pause and a takeover with no plan to begin pause the plan, the last two with the
plan-paused notification; an accepted shared write whose second frame start this is takes effect, and one with another start to come waits for
it; a failing row with a free spare is remapped. The frame number of a new plan is the model's reading (log 101).
Completes: FRAME_START. -/
def Obligations.FramesFollow : Prop :=
  (∀ s : State, framesRun s = true → s.faults.fatal = false → s.twin.mirrorDone = false → s.twin.shared = [] → s.plan.switchPending = false →
    s.plan.takeover = false → s.plan.fencePause = false → s.plan.pausePending = false → s.faults.failing = [] →
    LinksIdle s → PacksIdle s → ∃ t, exec .frameStart s = .next t ∧ (t.plan.frame = s.plan.frame + 1 ∧ t.plan.frameTick = s.clock.tick ∧ t.plan.active = s.plan.active ∧ t.plan.mode = s.plan.mode
      ∧ t.plan.staged = s.plan.staged ∧ t.plan.bells = [] ∧ t.plan.withheld = [] ∧ t.clock = s.clock ∧ t.boot = s.boot))
  ∧ (∀ s : State, framesRun s = true → s.faults.fatal = false → s.twin.mirrorDone = false → LinksIdle s → PacksIdle s →
    let next (P : State → Prop) : Prop := ∃ t, exec .frameStart s = .next t ∧ t.plan.frameTick = s.clock.tick ∧ P t
    let quiet : Prop := s.plan.switchPending = false ∧ s.plan.takeover = false ∧ s.plan.fencePause = false ∧ s.plan.pausePending = false
    let noted (t : State) : Prop := bitAt (obj t (key 0x2050 5)) 4 = true
    (∀ im o, s.plan.staged = some im → s.plan.active = some o → s.plan.switchPending = true → s.plan.takeover = false →
      s.plan.fencePause = false → s.twin.shared = [] → s.faults.failing = [] →
      let fail := activationFail (countStarts (clearBells (endFrame s))) im
      (fail = none → next fun t => t.plan.mode = .running ∧ t.plan.active = some im ∧ t.plan.staged = none ∧ t.plan.switchPending = false
        ∧ t.plan.cfg = s.plan.stagedCfg ∧ obj t (planKey 6) = im.planId
        ∧ t.plan.frame = (if o = im then s.plan.frame + 1 else (s.plan.frame + 1) * o.frameLen / max 1 im.frameLen))
      ∧ (∀ f, fail = some f → next fun t => t.plan.active = some o ∧ t.plan.stage = .refused ∧ t.plan.staged = none
        ∧ t.plan.switchPending = false ∧ t.plan.frame = s.plan.frame + 1 ∧ obj t (planKey 4) = f.1 ∧ obj t (planKey 5) = f.2))
    ∧ (s.plan.switchPending = false → s.plan.takeover = false → s.twin.shared = [] → s.faults.failing = [] → s.plan.mode = .running →
      (s.plan.pausePending = true ∨ s.plan.fencePause = true) → next fun t => t.plan.mode = .paused ∧ t.plan.pausePending = false
        ∧ t.plan.fencePause = false ∧ t.plan.active = s.plan.active ∧ t.plan.frame = s.plan.frame + 1 ∧ (s.plan.fencePause = true → noted t))
    ∧ (s.plan.switchPending = false → s.plan.takeover = true → (∀ im, s.plan.staged = some im → im.autoTwin = false) → s.twin.shared = [] →
      s.faults.failing = [] → next fun t => t.plan.mode = .paused ∧ t.plan.takeover = false ∧ t.plan.active = s.plan.active
        ∧ t.plan.frame = s.plan.frame + 1 ∧ noted t)
    ∧ (∀ w, quiet → s.twin.silent = false → s.faults.failing = [] → s.twin.shared = [w] → w.key ∈ sharedKeys s.hw → w.key ≠ epochKey →
      w.key ≠ key 0x8000 3 →
      (w.starts = 1 → next fun t => t.twin.shared = [] ∧ obj t w.key = w.value ∧ obj t (key 0xB000 5) = w.gen)
      ∧ (w.starts = 2 → next fun t => t.twin.shared = [{ w with starts := 1 }] ∧ obj t w.key = obj s w.key))
    ∧ (∀ f, quiet → s.twin.shared = [] → s.faults.failing = [f] → f.source < 0x700 → tget 0 (repairOf s f.source f.bank).rows f.row = 0 →
      (repairOf s f.source f.bank).sparesUsed < sparesOf f.source →
      next fun t => t.faults.failing = [] ∧ tget 0 (repairOf t f.source f.bank).rows f.row = 1
        ∧ (repairOf t f.source f.bank).sparesUsed = (repairOf s f.source f.bank).sparesUsed + 1 ∧ Advanced (key 0x7000 7) 1 s t))

/-- SLOT_START (R238, R239, R232) begins the slot's program at ENTRY with index registers zero and no open loop, its START tick and LENGTH
those of the plan, mapped in a stretched group (R241); a slot that a program overrunning its own slot delays keeps the START tick of its own
frame, however many frame starts the overrun crosses (how the model tells that frame is log 187); a ceiling that runs on holds its unit
(R228). A program that begins after its own last tick overruns at once; a slot without a program that begins so is over, its completion
record due. SLOT_LAST_TICK ends a slot without a program, and a program that still runs overruns: the slot is marked, OVERRUNS counts it
once, and the report's OP is the program's next word (log 157). Completes: SLOT_START, SLOT_LAST_TICK. -/
def Obligations.SlotsRun : Prop :=
  (∀ (q : BitVec 6) (slot : BitVec 10) (s : State) (im : Image) (si : SeqImage), seqExists s.hw q.toNat = true →
    s.plan.active = some im → seqImage s q.toNat = some si → slot.toNat < si.slots.length →
    let b := (nth 0 si.slots slot.toNat).toNat
    let a := getSeq s q.toNat
    let fr := slotFrame s im q.toNat slot.toNat b
    let st := seqStretched s q.toNat fr.2 && slotKind b == 0
    let at_ := slotPlace s im q.toNat b fr.1 fr.2
    let last := at_.1 + at_.2 - 1
    (at_ = (if st then (fr.1 + (stretchSlot im (slotStart b) (slotLength b)).1, (stretchSlot im (slotStart b) (slotLength b)).2)
      else (fr.1 + slotStart b, slotLength b)))
    ∧ (a.frameOf = none → (slotPlace s im q.toNat b s.plan.frameTick 0).1 ≤ s.clock.tick → fr = (s.plan.frameTick, 0))
    ∧ (∀ base k, a.frameOf = some base → 0 < im.frameLen → s.plan.frameTick = base + k * im.frameLen → a.slot < slot.toNat →
        (slotPlace s im q.toNat b base k).1 ≤ a.freeAt → fr = (base, k))
    ∧ (∀ base k, a.frameOf = some base → 0 < im.frameLen → s.plan.frameTick = base + im.frameLen + k * im.frameLen → slot.toNat ≤ a.slot →
        (slotPlace s im q.toNat b (base + im.frameLen) k).1 ≤ a.freeAt → fr = (base + im.frameLen, k))
    ∧ (slotMayStart s q.toNat b = true →
    ∃ t, exec (.slotStart q slot) s = .next t ∧ (let x := getSeq t q.toNat
      OnlySeq q.toNat s t ∧ x.slot = slot.toNat ∧ x.pc = slotEntry b
      ∧ x.x1 = 0 ∧ x.x2 = 0 ∧ x.x3 = 0 ∧ x.loops = [] ∧ x.lastTick = none ∧ x.firstOp = a.nextOp
      ∧ x.ops = a.ops ∧ x.start = at_.1 ∧ x.length = at_.2
      ∧ (st = false → a.stretched = false → x.holdFr = a.start + a.holdFr - at_.1 ∧ x.holdLn = a.start + a.holdLn - at_.1
          ∧ x.holdLk = a.start + a.holdLk - at_.1)
      ∧ (s.clock.tick ≤ last → t = { s with seqs := t.seqs } ∧ x.running = true ∧ x.overrun = false ∧ x.ended = a.ended)
      ∧ (last < s.clock.tick → slotEntry b ≠ 0x1FFF → DatapathOnly s t ∧ x.running = true ∧ x.overrun = true ∧ x.ended = a.ended
          ∧ Advanced (key 0x2413 (q.toNat + 1)) 1 s t)
      ∧ (last < s.clock.tick → slotEntry b = 0x1FFF → t = { s with seqs := t.seqs } ∧ x.running = false ∧ x.overrun = false
          ∧ x.ended = a.ended ++ (if slotCpl b && slotKind b == 0 then
              [{ stream := slotStream b, tenant := slotTenant b, firstOp := a.nextOp, upTo := a.nextOp, overrun := false
                 inFrame := x.inFrame, yielded := x.yielded }]
              else [])))))
  ∧ (∀ (q : BitVec 6) (s : State), seqExists s.hw q.toNat = true → (getSeq s q.toNat).running = true →
    s.faults.fatal = false →
    (slotEntry (slotBits s q.toNat) = 0x1FFF → ∃ t, exec (.slotLastTick q) s = .next t ∧ ((getSeq t q.toNat).running = false ∧ (getSeq t q.toNat).loops = [] ∧ OnlySeq q.toNat s t ∧ t.plan = s.plan))
    ∧ (slotEntry (slotBits s q.toNat) ≠ 0x1FFF → ∃ t, exec (.slotLastTick q) s = .next t ∧ (DatapathOnly s t ∧ OnlySeq q.toNat s t ∧ getSeq t q.toNat = { getSeq s q.toNat with overrun := true }
      ∧ ((getSeq s q.toNat).overrun = false → Advanced (key 0x2413 (q.toNat + 1)) 1 s t)
      ∧ (s.faults.overran.contains (seqSource q.toNat) = false →
          ∃ x : Report, t.faults.reports = s.faults.reports ++ [x] ∧ x.d.source = BitVec.ofNat 12 (seqSource q.toNat)
            ∧ x.d.cls = .contained ∧ x.d.access = 8 ∧ x.d.op = BitVec.ofNat 8 (opNow s q.toNat)))))

/-- COMPLETION_RECORD (R246, R259, R443): the record of the oldest ended slot whose own writes are acknowledged goes to the next place of
the ring and pulses IRQ_CPL_N, or, where the ring may not be written, no record is made and a region fault is raised; the ring's count
goes on. That the stream's flags of poison, saturation and hazard are clear after its record is the model's reading (log 20), and so is the
form of the output that carries it (log 105).
Completes: COMPLETION_RECORD. -/
def Obligations.CompletionRecords : Prop :=
  ∀ (q : BitVec 6) (s : State) (e : EndedSlot) (im : Image), seqExists s.hw q.toNat = true → s.faults.fatal = false →
    recordDue s q.toNat = some e → s.plan.active = some im →
    let n := obj s (planKey 13)
    let addr := im.ring + 16 * (n % 2 ^ im.ringLog)
    let v := privAccess s addr false
    ∃ t, exec (.completionRecord q) s = .next t ∧ ((getSeq t q.toNat).ended = (getSeq s q.toNat).ended.erase e ∧ OnlySeq q.toNat s t ∧ Advanced (planKey 13) 1 s t
      ∧ tget flagsDefault t.plan.streams e.stream =
          { tget flagsDefault s.plan.streams e.stream with poison := false, sat := false, hazard := false }
      ∧ (∀ k w, v = .ok k w → t.faults = s.faults ∧ s.clock.tick < t.clock.cplEnd
          ∧ t.out = .completion (BitVec.ofNat 64 (w.toNat / 256 * 256)) (addr % 256)
              (BitVec.ofNat 128 (completionRecord s e n im.ringLog)) :: s.out)
      ∧ ((∀ k w, v ≠ .ok k w) → t.out = s.out ∧ t.clock = s.clock
          ∧ ∃ x : Report, t.faults.reports = s.faults.reports ++ [x] ∧ x.d.source = 0x900 ∧ x.d.cls = .contained ∧ x.d.access = 4))

/-- The test slot (R240, R381): its start counts the slot and suspends every sequencer that runs a slot; its end releases them, the sources
due that it leaves untested are deferred to the next in their order, and no held resynchronisation frame is left. That a source due without
a verdict in the slot is untested, besides those that their controller has not finished, is the model's reading (log 182).
Completes: TEST_SLOT_START, TEST_SLOT_END. -/
def Obligations.TestSlots : Prop :=
  (∀ s : State, Canonical s → framesRun s = true → s.plan.testSlot = false → s.faults.fatal = false →
    ∃ t, exec .testSlotStart s = .next t ∧ (t.plan = { s.plan with testSlot := true } ∧ t.tests.deferred = [] ∧ t.tests.tested = []
      ∧ t.tests.slotFrom = s.clock.tick ∧ Advanced (key 0x8010 1) 1 s t
      ∧ ∀ q, getSeq t q = { getSeq s q with suspended := (getSeq s q).suspended || (getSeq s q).running, testEnds := [] }))
  ∧ (∀ (l : List (BitVec 12)) (s : State), s.plan.testSlot = true →
    ∃ t, exec (.testSlotEnd l) s = .next t ∧ ((∀ q, (getSeq t q).suspended = false) ∧ t.plan.testSlot = false ∧ t.tests.due = [] ∧ t.tests.tested = []
      ∧ t.tests.deferred = s.tests.due.filter (fun k => !s.tests.tested.contains k || l.any (fun u => u.toNat == k))
      ∧ (∀ u ∈ l, u.toNat ∈ s.tests.due → u.toNat ∈ t.tests.deferred)
      ∧ ∀ p, p < nPorts s.hw → (getPort t p).owed = []))

/-- TEST_ITEM_VERDICT (R381, R382): where an item of a source may come to its verdict, one that passes is only counted; one that fails
raises a contained fault with access type 0xB, adds a history entry of kind 0x05 and posts a verdict record of result 1 at the next place of
its ring (Table 16.4); what else is reported is the mirror's refusal of the entry (R383). When a verdict may come is the model's reading in part (log 165). Completes: TEST_ITEM_VERDICT. -/
def Obligations.TestVerdicts : Prop :=
  ∀ (src : BitVec 12) (pkg : BitVec 4) (item : BitVec 32) (sig : BitVec 64) (pass : Bool) (bank row : BitVec 8) (s : State)
    (o : Option TestItem), srcExists s.hw src.toNat = true → s.faults.fatal = false → verdictTime s src.toNat pkg.toNat = true →
    testItem s src.toNat pkg.toNat item.toNat = some o →
    let good := match o with | some i => sig == i.signature | none => pass
    (good = true → ∃ t, exec (.testItemVerdict src pkg item sig pass bank row) s = .next t
      ∧ (t = { s with objs := t.objs, tests := (markTested src.toNat s).tests } ∧ OnlyObjects [key 0x8020 2] s t ∧ Advanced (key 0x8020 2) 1 s t))
    ∧ (good = false → ∃ t, exec (.testItemVerdict src pkg item sig pass bank row) s = .next t ∧ ((∃ (x : Report) (l : List Report), t.faults = { s.faults with reports := s.faults.reports ++ x :: l } ∧ x.d.source = src ∧ x.d.cls = .contained
        ∧ x.d.access = 0xB ∧ x.test = true ∧ x.forced = false)
      ∧ (s.hist.own.length + 1 < histMax → ∃ e ∈ t.hist.own, e.kind = 5 ∧ e.seq = BitVec.ofNat 32 s.hist.nextSeq ∧ e.twin = s.boot.twinIdx)
      ∧ obj t (key 0x8021 1 + obj s (key 0x8020 1) % 32) = verdictRecord s src.toNat pkg.toNat item.toNat 1
      ∧ Advanced (key 0x8020 1) 1 s t ∧ t.tests = (markTested src.toNat s).tests))

/-- DIGEST_INTERVAL_END (R138, R140): each slot's sum over the clusters is published modulo 2^64, the clusters' sums and the step count
begin again, and DIGEST_INTERVAL takes effect.
Completes: DIGEST_INTERVAL_END. -/
def Obligations.DigestsPublished : Prop :=
  ∀ s : State, Canonical s → s.plan.digestInterval ≤ s.plan.digestSteps → s.faults.fatal = false →
    ∃ t, exec .digestIntervalEnd s = .next t ∧ ((∀ d, d < 64 → obj t (key 0xA110 (d + 1)) =
        nsum ((List.range (nClusters s.hw)).map (fun c => tget 0 (getCl s c).digest d)) % 2 ^ 64)
      ∧ (∀ c, getCl t c = { getCl s c with digest := [], digestMissed := [] })
      ∧ t.plan = { s.plan with digestSteps := 0, digestTensor := [], digestInterval := obj s (key 0xA100 1) }
      ∧ Advanced (key 0xA100 2) 1 s t
      ∧ t = { s with objs := t.objs, clusters := t.clusters, plan := t.plan })

/-! ## Clusters -/

/-- LANE_REMAP (R127 to R129): the spare stands for a lost position unless it is lost itself or already serves one, two lost lanes stretch the
cluster, and no task runs on the old map any more; a lane raised but not yet fenced goes on to carry poison. That of several lost positions
the spare serves the lowest-numbered is the model's choice (log 148).
Completes: LANE_REMAP. -/
def Obligations.LaneRemaps : Prop :=
  ∀ (c : BitVec 5) (s : State), c.toNat < nClusters s.hw → (getCl s c.toNat).remapLane ≠ none → (getCl s c.toNat).fenced = false →
    ∃ t, exec (.laneRemap c) s = .next t ∧ (let a := getCl s c.toNat
      let b := getCl t c.toNat
      t = { s with clusters := t.clusters } ∧ OnlyCluster c.toNat s t
      ∧ b = { a with spareFor := b.spareFor, stretched := b.stretched, remapLane := none
                     poisonLanes := a.poisonLanes.filter (fun l => !bitAt a.lanesFenced l) }
      ∧ (bitAt a.lanesFenced 16 = true → b.spareFor = none)
      ∧ (bitAt a.lanesFenced 16 = false → a.spareFor = none → b.spareFor = (positions 16 (bitAt a.lanesFenced)).head?)
      ∧ (bitAt a.lanesFenced 16 = false → a.spareFor ≠ none → b.spareFor = a.spareFor)
      ∧ b.stretched = (a.stretched || decide (2 ≤ popcount 17 a.lanesFenced)))

/-- Element codes (R70, R75). AI8: element e is payload byte e in two's complement, 0x80 expands as −127, and FA_INT_MIN counts a group
that shows one. 2:4 weights: a quad with an unused code 0x36 to 0x3F expands as four zeros, every other quad stays where it is, and
FA_CODE counts the group once. The check code (R44, R47, R51, R52): α^0 to α^7 are roots of g(x); a received codeword with zero syndromes is
passed on as it is; a corrected one had a pattern of one or two non-zero symbols subtracted that lies at x^0 to x^127, has exactly its syndromes
and, in codeword A, leaves bit 7 of s_0 alone; a container of two error-free codewords is as received, one with an uncorrectable codeword is
marked; marking sets POISON and no other of the 240 data bytes' bits. -/
def Obligations.ElementCodes : Prop :=
  (∀ (b : Block) (tr : Bool) (count : Nat) (f : Fmt), fmtOf 0x10 = some f → hZeroChan b = false →
    let code (e : Nat) : Nat := fld b.toNat (8 * (16 + e)) 8
    (∀ e, e < count → e < 224 →
      nth 0 (expandBlock f tr count b).vals e = (if code e = 0x80 then -127 else (BitVec.ofNat 8 (code e)).toInt))
    ∧ (expandBlock f tr count b).anoms.intMin =
        ((List.range 7).filter (fun g => (List.range 32).any (fun k => decide (32 * g + k < count) && code (32 * g + k) == 0x80))).length)
  ∧ (∀ (b : Block) (tr : Bool) (count : Nat) (f : Fmt), (fmtOf 0x04 = some f ∨ (fmtOf 0x05 = some f ∧ tr = false)) → hZeroChan b = false →
    let quad (g q : Nat) : Nat := fld b.toNat (8 * (16 + 13 * g) + 6 * q) 6
    (∀ g q k, g < 17 → q < 16 → k < 4 → 64 * g + 4 * q + k < count →
      (0x36 ≤ quad g q → nth 0 (expandBlock f tr count b).vals (64 * g + 4 * q + k) = 0)
      ∧ (quad g q < 0x36 → nth 0 (expandBlock f tr count b).vals (64 * g + 4 * q + k) = nth 0 (quadOf (quad g q)) k))
    ∧ (expandBlock f tr count b).anoms.code =
        ((List.range 17).filter (fun g => (List.range 16).any (fun q => decide (64 * g + 4 * q < count) && decide (0x36 ≤ quad g q)))).length)
  ∧ (∀ (c : Nat) (a : Anoms) (s : State),
    (0 < a.code → Advanced (key 0xA020 3) a.code s (countAnoms (some c) a s))
    ∧ (0 < a.intMin → Advanced (key 0xA020 5) a.intMin s (countAnoms (some c) a s)))
  ∧ (∀ i, i < 8 → syndrome (1 :: genPoly) i = 0)
  ∧ (∀ (isA : Bool) (r l : List Nat) (n : Nat),
    ((∀ i, i < 8 → syndrome r i = 0) → decodeWord isA r = .ok r 0)
    ∧ (decodeWord isA r = .ok l n → 0 < n → n ≤ 2 ∧ ∃ e : List (Nat × Nat), e.length = n ∧ l = fixSymbols r e
        ∧ (∀ p ∈ e, p.1 < 128 ∧ p.2 ≠ 0 ∧ (isA = true → p.1 = 127 → p.2 / 128 ≠ 1)) ∧ ∀ i, i < 8 → patternSyndrome e i = syndrome r i))
  ∧ (∀ b : Block,
    let a := decodeWord true (symbolsOf (blockBytes b) 0)
    let c := decodeWord false (symbolsOf (blockBytes b) 1)
    (∀ x y, a = .ok x 0 → c = .ok y 0 → decodeBlock b = { block := b, fixed := 0, bad := false, recheck := false, detail := 0 })
    ∧ (a = .bad ∨ c = .bad → (decodeBlock b).bad = true ∧ hPoison (decodeBlock b).block = true)
    ∧ ∀ k, k < 1920 → bitAt (markPoison b).toNat k = (bitAt b.toNat k || k == 6))

/-- The accumulator's rule (R201): poison stays poison and takes precedence, a saturated word stays, a saturated update is taken as it
is, and any other sum is held within ±(2^63 − 1), saturating where it reaches either. The pack unit's step and quantiser (R97, R101 to R103): a
step that is not clamped is the smallest normalised one that exceeds h × m ÷ (Qmax + ½); a code lies within ±Qmax; unless it saturated, it is
the quotient rounded half to even, or, stochastically, its floor plus one exactly where u is below frac16; it saturates, half to even, only at
Qmax + ½ and beyond. -/
def Obligations.AccumulatorRule : Prop :=
  ∀ (old : Word) (upd : Int) (p sat : Bool),
    (old = accPois ∨ p = true → accUpdate old upd p sat = accPois)
    ∧ (old ≠ accPois → p = false → accSat old = true → accUpdate old upd p sat = old)
    ∧ (old ≠ accPois → p = false → accSat old = false → sat = true → accUpdate old upd p sat = BitVec.ofInt 64 upd)
    ∧ (old ≠ accPois → p = false → accSat old = false → sat = false →
        (accUpdate old upd p sat).toInt = max (-(2 ^ 63 - 1)) (min (2 ^ 63 - 1) (old.toInt + upd)))
    ∧ (accSaturates old upd p sat = true ↔
        old ≠ accPois ∧ p = false ∧ accSat old = false ∧ sat = false ∧ (2 ^ 63 - 1 ≤ old.toInt + upd ∨ old.toInt + upd ≤ -(2 ^ 63 - 1)))
    ∧ (accSat old = true ↔ old = 0x7FFFFFFFFFFFFFFF ∨ old = 0x8000000000000001) ∧ accPois = 0x8000000000000000
    ∧ (∀ (m : Dyad) (h qmax : Nat) (base lo hi : Int), 0 < m.m → 0 < h → lo ≤ hi →
        let st := stepFor m h qmax base lo hi
        let step (mant : Nat) (e : Int) : Dyad := { m := 64 * (2 * qmax + 1) * mant, x := e + base - 7 }
        let load : Dyad := { m := 2 * h * m.m, x := m.x }
        128 ≤ st.mant ∧ st.mant ≤ 255 ∧ lo ≤ st.exp ∧ st.exp ≤ hi
        ∧ (st.low = true → st.mant = 128 ∧ st.exp = lo) ∧ (st.high = true → st.mant = 255 ∧ st.exp = hi)
        ∧ (st.low = false → st.high = false → (step st.mant st.exp).le load = false
          ∧ (if st.mant = 128 then step 255 (st.exp - 1) else step (st.mant - 1) st.exp).le load = true))
    ∧ (∀ (qmax : Nat) (floorExp x : Int), perTokenStep { m := 0, x := x } qmax floorExp = { mant := 0x80, exp := floorExp, low := false, high := false })
    ∧ (∀ (n e k : Int) (mant qmax u : Nat), 0 < mant →
        let num : Int := n * (2 ^ (e - k).toNat : Nat)
        let den : Int := (mant * 2 ^ (k - e).toNat : Nat)
        let c := quantise n e mant k qmax none
        let d := quantise n e mant k qmax (some u)
        c.1 ≤ qmax ∧ -(qmax : Int) ≤ c.1 ∧ -(qmax : Int) ≤ d.1 ∧ d.1 ≤ qmax
        ∧ (c.2 = false → 2 * (c.1 * den - num).natAbs ≤ den.toNat ∧ (2 * (c.1 * den - num).natAbs = den.toNat → c.1 % 2 = 0))
        ∧ (c.2 = true → (c.1 = qmax ∧ (2 * qmax + 1) * den ≤ 2 * num) ∨ (c.1 = -(qmax : Int) ∧ 2 * num ≤ -((2 * qmax + 1) * den)))
        ∧ (d.2 = false → d.1 = num / den + (if (u : Int) < num % den * 65536 / den then 1 else 0)))

/-- SPAD_RMW_RETURN (R201, R438): the returned word answers the lane's oldest update; the new word is driven, and a sum that saturates
marks the tile and counts; that a word or an update that was saturated already does neither is the model's reading (log 28).
Completes: SPAD_RMW_RETURN. -/
def Obligations.ReadModifyWrite : Prop :=
  ∀ (c : BitVec 5) (lane : BitVec 6) (old : Word) (s : State) (u : Upd), c.toNat < nClusters s.hw → s.faults.fatal = false →
    (getCl s c.toNat).updates.find? (fun x => x.lane == lane.toNat) = some u →
    ∃ t, exec (.spadRmwReturn c lane old) s = .next t ∧ (t = { s with clusters := t.clusters, objs := t.objs, out := t.out } ∧ OnlyCluster c.toNat s t
      ∧ t.out = .spadNew c.toNat lane.toNat u.idx (accUpdate old u.val u.poison u.sat) :: s.out
      ∧ (getCl t c.toNat).updates = (getCl s c.toNat).updates.erase u
      ∧ OnlyObjects [key 0xA032 (c.toNat + 1)] s t
      ∧ (accSaturates old u.val u.poison u.sat = true → Advanced (key 0xA032 (c.toNat + 1)) 1 s t
          ∧ ∀ e ∈ (getCl t c.toNat).tiles, e.2.uid = u.tile → e.2.sat = true)
      ∧ (accSaturates old u.val u.poison u.sat = false → t.objs = s.objs ∧ (getCl t c.toNat).tiles = (getCl s c.toNat).tiles))

/-- PARTIAL_RESULT (R193, R195, R197, R207): a partial whose two records are held and whose product lies in the span of its open tile
updates one accumulator by Q × 2^(X − X_T): written without a read at the first touch, by a read-modify-write after. A partial with
no weight record is discarded, counted and reported.
Completes: PARTIAL_RESULT. -/
def Obligations.PartialsAccumulate : Prop :=
  (∀ (c : BitVec 5) (p : Word) (s : State) (wd : WDelivery) (wg : WGroup) (a : ActScale) (k : Nat) (x : Tile),
    let i := c.toNat
    let sh := productX wg a - x.xt
    i < nClusters s.hw → s.faults.fatal = false → findW (getCl s i) (ptWseq p) (ptWgrp p) = some (wd, wg) → findA (getCl s i) (ptAseq p) (ptAgrp p) = some a →
    wd.verify = none → wd.tile ≠ 0 → tileByUid (getCl s i) wd.tile = some (k, x) → x.ready = false → x.far = none →
    ptRow p < x.rows → wg.col < x.cols → ptPoison p = false → productQ (ptValue p) wg a ≠ 0 → 0 ≤ sh → sh ≤ 16 →
    ∃ t, exec (.partialResult c [p]) s = .next t ∧ (let v := productQ (ptValue p) wg a * 2 ^ sh.toNat
      let n := x.index (ptRow p) wg.col
      let first := x.keep = false ∧ x.touched / touchBit x n % 2 = 0
      t = { s with clusters := t.clusters, objs := t.objs, out := t.out } ∧ OnlyCluster i s t
      ∧ Advanced (key 0xA030 (i + 1)) 1 s t ∧ Advanced (key 0xA031 (i + 1)) 1 s t
      ∧ (first → t.out = .spadNew i 0 n (accUpdate 0 v false false) :: s.out ∧ (getCl t i).updates = (getCl s i).updates)
      ∧ (¬ first → t.out = .spadUpdate i 0 n :: s.out
          ∧ (getCl t i).updates = (getCl s i).updates ++ [{ lane := 0, idx := n, tile := x.uid, val := v, poison := false, sat := false }])))
  ∧ (∀ (c : BitVec 5) (p : Word) (s : State), c.toNat < nClusters s.hw → s.faults.fatal = false →
    findW (getCl s c.toNat) (ptWseq p) (ptWgrp p) = none →
    ∃ t, exec (.partialResult c [p]) s = .next t ∧ (t.out = s.out ∧ OnlyCluster c.toNat s t ∧ Advanced (key 0xA037 (c.toNat + 1)) 1 s t
      ∧ (∀ e ∈ (getCl t c.toNat).tiles, e.2.ready = false → e.2.poison = true)
      ∧ ∃ r : Report, t.faults = { s.faults with reports := s.faults.reports ++ [r] } ∧ r.d.cls = .contained ∧ r.d.access = 9
        ∧ r.d.source = BitVec.ofNat 12 (srcMerge c.toNat)))

/-- TILE_DRAIN_READY (R202, R208): a closed tile whose expansions, updates and verifications are done is drained: the pack unit completes a
container for every piece of its rows, of the accumulators as the drain reads them, from then on (R20; a far target has none). TILE_RELEASE:
the drain is over, its containers enter the write queue, which has room, in order and under the next numbers, and the entry is free.
PRODUCER_VERDICT (R280, R284): with the links at rest, a confirmed container that waits alone in its pack unit's queue, depends
on no link container and may be written leaves for the fabric write port.
Completes: TILE_DRAIN_READY, TILE_RELEASE, PRODUCER_VERDICT. -/
def Obligations.TilesDrain : Prop :=
  (
    (∀ (c : BitVec 5) (entry : BitVec 3) (acc : List Word) (s : State) (x : Tile) (r : PackReq) (f : Fmt),
      let i := c.toNat
      i < nClusters s.hw → s.faults.fatal = false → (getCl s i).tiles.find? (fun e => e.1 == entry.toNat) = some (entry.toNat, x) →
      x.closed = some r → drainable s (getCl s i) x = true → fmtOf (tdFormat (tensorOf s r.desc)) = some f → 0 < x.cols → 0 < f.cap →
      ∃ t, exec (.tileDrainReady c entry acc) s = .next t ∧ (DatapathOnly s t ∧ OnlyCluster i s t ∧ t.faults = s.faults
        ∧ t.out = (if x.far = none then (tileReads x).reverse.map (fun a => .spadRead i a.1 a.2) else []) ++ s.out
        ∧ (x.far ≠ none → ∀ e ∈ (getCl t i).tiles, e.2.uid = x.uid → e.2.ready = true)
        ∧ (x.far = none → ∃ y, (getCl t i).tiles.find? (fun e => e.1 == entry.toNat) = some (entry.toNat, y) ∧ y.ready = true
            ∧ y.made = x.made ∧ y.drained = x.drained ∧ y.toPack.length = x.rows * ceilDiv x.cols f.cap
            ∧ (y.toPack.map (·.words)).flatten =
                (List.range x.rows).flatMap (fun i => (List.range x.cols).map (fun k => drainWord x acc (i * x.cols + k))))))
    ∧ (∀ (c : BitVec 5) (entry : BitVec 3) (s : State) (x : Tile) (r : PackReq),
      let i := c.toNat
      i < nClusters s.hw → s.faults.fatal = false → (getCl s i).tiles.find? (fun e => e.1 == entry.toNat) = some (entry.toNat, x) →
      let n := x.made.length + x.toPack.length
      x.closed = some r → x.ready = true → (getCl s i).packQueue.length + n ≤ 128 →
      (∀ m ∈ x.made, m.residue = .unsettled) → (x.toPack = [] ∨ (fmtOf (tdFormat x.drainDesc)).isSome = true) →
      ∃ t, exec (.tileRelease c entry) s = .next t ∧ (DatapathOnly s t ∧ OnlyCluster i s t ∧ (getCl t i).tiles = tdel (getCl s i).tiles entry.toNat
        ∧ (getCl t i).nextItem = (getCl s i).nextItem + n ∧ Advanced (key 0xA000 4) n s t
        ∧ ∃ kept l, (getCl t i).packQueue = kept ++ l ∧ kept.Sublist (getCl s i).packQueue ∧ l.map (·.id) = (List.range n).map ((getCl s i).nextItem + ·)
          ∧ l.map (·.dest) = x.made.map (·.dest) ++ x.toPack.map (fun p => destOf x.drainDesc r p.num)
          ∧ (l.take x.made.length).map (·.block) = x.made.map (fun m => sealBlock (hPoison m.block) m.block)
          ∧ ∀ m ∈ l, m.residue = .unsettled)))
  ∧ (
    ∀ (c : BitVec 5) (s : State) (i : PackItem) (d off stk : Nat) (w : Word), c.toNat < nClusters s.hw → LinksIdle s → 0 < writeRoom s c.toNat →
      (getCl s c.toNat).packQueue = [i] → (∀ j, j ≠ c.toNat → (getCl s j).packQueue = []) → i.dest = .mem d off → i.residue = .unsettled →
      i.ranges = [] → tensorAccess s d off (some i.tenant) false false = .ok stk w →
      ∃ t, exec (.producerVerdict (.pack c i.id) true) s = .next t ∧ (DatapathOnly s t ∧ (getCl t c.toNat).packQueue = []
        ∧ (getCl t c.toNat).toWrite.map (·.data) = (getCl s c.toNat).toWrite.map (·.data) ++ [i.block] ∧ t.faults = s.faults))

/-- A failing residue check (R375) is a fault of its unit: contained and poisoning the tile of a merge tree, what its drain has still to read included (R202), contained in a
lane, whose deliveries carry poison from then on (R128), corrected in the predictor, whose pass then skips nothing (R184); on the
dictionary path it meets the next request (R408). LATE_POISON_NOTICE (R128, R211): every held tile that a
named delivery feeds is poisoned, and the notice is counted once.
Completes: RESIDUE_CHECK_FAIL, LATE_POISON_NOTICE. -/
def Obligations.ResidueAndLatePoison : Prop :=
  (
    ∀ (c l : BitVec 5) (e : BitVec 3) (n : BitVec 4) (w : Bool) (seqs : List (BitVec 16)) (syn dn : BitVec 16) (s : State),
      c.toNat < nClusters s.hw → l.toNat < 17 →
      let reported (src : Nat) (cls : FaultClass) (t : State) : Prop :=
        ∃ r : Report, t.faults = { s.faults with reports := s.faults.reports ++ [r] } ∧ r.d.source = BitVec.ofNat 12 src ∧ r.d.cls = cls
          ∧ r.d.access = 2 ∧ r.d.syndrome = syn
      (∃ t, exec (.residueCheckFail (.mergeTree c (some e) dn) syn) s = .next t ∧ (reported (srcMerge c.toNat) .contained t ∧ OnlyCluster c.toNat s t
        ∧ (∃ r : Report, t.faults.reports = s.faults.reports ++ [r] ∧ r.d.detail.toNat = dn.toNat)
        ∧ ∀ x ∈ (getCl t c.toNat).tiles, x.1 = e.toNat → x.2.poison = true ∧ ∀ p ∈ x.2.toPack, ∀ w ∈ p.words, w = accPois))
      ∧ (∃ t, exec (.residueCheckFail (.lane c l w seqs) syn) s = .next t ∧ (reported (17 * c.toNat + l.toNat) .contained t ∧ OnlyCluster c.toNat s t
        ∧ ((getSrc s (17 * c.toNat + l.toNat)).fenced = false → l.toNat ∈ (getCl t c.toNat).poisonLanes)))
      ∧ (powered s = true → exec (.residueCheckFail .dictionary syn) s = .next { s with dict := { s.dict with residueBad := some syn } })
      ∧ (∀ k p, pendingPass (getCl s c.toNat) n.toNat = some (k, p) →
        (∃ t, exec (.residueCheckFail (.flick c n) syn) s = .next t ∧ (reported (srcFlick c.toNat) .corrected t ∧ OnlyCluster c.toNat s t
          ∧ (getCl t c.toNat).flickPasses = tins (getCl s c.toNat).flickPasses k { p with residueFail := true }))))
  ∧ (
    ∀ (c lane : BitVec 5) (w : Bool) (seqs : List (BitVec 16)) (s : State), c.toNat < nClusters s.hw → lane.toNat < 17 →
      ∃ t, exec (.latePoisonNotice c lane w seqs) s = .next t ∧ (let a := getCl s c.toNat
        let named (n : Nat) : Prop := n ∈ seqs.map (·.toNat)
        t = { s with clusters := t.clusters, objs := t.objs } ∧ OnlyCluster c.toNat s t ∧ OnlyObjects [key 0xA036 (c.toNat + 1)] s t
        ∧ Advanced (key 0xA036 (c.toNat + 1)) 1 s t
        ∧ getCl t c.toNat = { a with tiles := (getCl t c.toNat).tiles }
        ∧ (w = true → ∀ d ∈ a.wrecs, named d.seq → ∀ e ∈ (getCl t c.toNat).tiles, e.2.uid = d.tile → e.2.poison = true)
        ∧ (w = false → ∀ d ∈ a.arecs, named d.seq → ∀ e ∈ (getCl t c.toNat).tiles, e.2.uid = d.tile → e.2.poison = true)))

/-- FABRIC_READ_RESPONSE (R55, R334, R437): the oldest read's block fills its pad slot, tagged where it came uncorrectable, and joins
the cluster's queue with room; the read that waited longest takes its place. FABRIC_WRITE_DONE and EA_DONE (R437, R439): the oldest
write, or a lane's oldest word, is done. Completes: FABRIC_READ_RESPONSE, FABRIC_WRITE_DONE, EA_DONE. -/
def Obligations.FabricAnswers : Prop :=
  (∀ (c : BitVec 5) (b : Block) (ue : Bool) (s : State) (r : ReadReq) (rest : List ReadReq) (slot : Nat),
    let i := c.toNat
    i < nClusters s.hw → (getCl s i).reads = r :: rest → queueFull s i = false → r.use = .pad slot → slotFenced (getCl s i) slot = false →
    ∃ t, exec (.fabricReadResponse c b ue) s = .next t ∧ (DatapathOnly s t ∧ OnlyCluster i s t
      ∧ (getCl t i).arrived = (getCl s i).arrived ++ [{ req := r, ue := ue }]
      ∧ (rest.length < 512 → (getCl t i).reads = rest ++ ((getCl s i).readWait.take 1).map (·.1)
          ∧ (getCl t i).readWait = (getCl s i).readWait.drop 1)
      ∧ padSlot (getCl t i) slot = { data := b, poison := ue, fill := some r.addr, pend := none, retracted := false }
      ∧ (∀ n, n ≠ slot → padSlot (getCl t i) n = padSlot (getCl s i) n)
      ∧ (getQueue t i).slots = (getQueue s i).slots ++ [slot]
      ∧ (ue = false → t.faults = s.faults) ∧ Advanced (key 0xA000 3) 1 s t))
  ∧ (∀ (c : BitVec 5) (s : State) (w : WriteReq) (rest : List WriteReq), c.toNat < nClusters s.hw →
    (getCl s c.toNat).writes = w :: rest →
    ∃ t, exec (.fabricWriteDone c) s = .next t ∧ (DatapathOnly s t ∧ OnlyCluster c.toNat s t ∧ getCl t c.toNat = { getCl s c.toNat with writes := rest } ∧ t.out = s.out
      ∧ (w.isContainer = true → Advanced (key 0xA000 5) 1 s t)))
  ∧ (∀ (s : State) (l : Nat) (e : EaWord), l < 16 → s.ord0.lanes.find? (fun x => x.lane == l) = some e →
    ∃ t, exec (.eaDone false (BitVec.ofNat 16 (2 ^ l))) s = .next t ∧ (t = { s with seqs := t.seqs, ord0 := { lanes := s.ord0.lanes.erase e }, plan := { s.plan with bells := t.plan.bells } }))

/-! ## Queues and islands -/

/-- QUEUE_READ (R327, R330 to R333): a read-response queue gives up its oldest entry, and the cluster takes the response; words read clean
count nothing and raise nothing; a bad packet is discarded and counted; a queue with nothing to read changes nothing, and gives the idle
word. A packet of a queue of 0x0B0 and up, whose words come with the read (log 6), is counted where its first word is uncorrectable, the rest
of its words are discarded, and what Table 13.5 names follows: a request meets check 2, a frame or a buffered request is dropped, the slots
that a command is for report OVERRUN (log 156). SUPPLY_DROOP (R321): the island's
detector level, and the stretched cycles counted; the management island never stretches. BREACH_WINDOW_END (R323): the breach is counted
and the lowest clock of the frame kept. Completes: QUEUE_READ, SUPPLY_DROOP, BREACH_WINDOW_END. -/
def Obligations.QueuesAndIslands : Prop :=
  (
    ∀ (q : BitVec 9) (flips : List (BitVec 72)) (word : Option (BitVec 72)) (s : State), queueExists s.hw q.toNat = true → s.faults.fatal = false →
      let k := q.toNat
      let a := getQueue s k
      (k < 0xB0 → a.entries = [] → exec (.queueRead q flips word) s = .next s)
      ∧ (0xB0 ≤ k → exec (.queueRead q flips none) s = .next s)
      ∧ (∀ w, 0xB0 ≤ k → a.discard = 0 → a.read = 0 → (readWord w).isBad = true →
          ∃ t, exec (.queueRead q flips (some w)) s = .next t ∧ (Advanced (qObj 0x2044 k) 1 s t ∧ Advanced (qObj 0x2048 k) 1 s t
            ∧ (getQueue t k).discard = packetWords k - 1
            ∧ (k < 0xD8 → t.dict.packetBad = true) ∧ (k = 0x100 → t.out = s.out.eraseP isCanOut) ∧ (k = 0x101 → t.dict.canBuf = s.dict.canBuf.drop 1)
            ∧ (0x104 ≤ k → ∀ j ∈ islandSeqs (commandIsland ((k - 0x104) % 24)), (getSeq s j).running = true → (getSeq t j).overrun = true)))
      ∧ (∀ e rest, k < 0x20 → a.entries = e :: rest → a.waiting = [] →
          (∀ x, (getCl s k).arrived.head? = some x → ∃ n, x.req.use = .pad n) →
          ∃ t, exec (.queueRead q flips word) s = .next t ∧ (let ws := readEntry e flips
            QueueReadFrame s t ∧ (getQueue t k).entries = rest ∧ (getCl t k).arrived = (getCl s k).arrived.drop 1
            ∧ (entryBad k (nth 0 a.slots 0) ws = true → Advanced (qObj 0x2048 k) 1 s t)
            ∧ (ws.all (fun w => !w.isBad && !w.isCorrected) = true → entryBad k (nth 0 a.slots 0) ws = false →
                t.faults = s.faults ∧ OnlyObjects [key 0x2031 (k / 4 + 1)] s t))))
  ∧ (
    ∀ (i : BitVec 6) (below : Bool) (n : BitVec 32) (mhz : BitVec 16) (s : State), islandExists s.hw i.toNat = true →
      (i = 33 → exec (.supplyDroop i below n) s = .next s ∧ exec (.breachWindowEnd i mhz) s = .next s)
      ∧ (i ≠ 33 →
        (∃ t, exec (.supplyDroop i below n) s = .next t ∧ (t = { s with objs := t.objs, islands := t.islands } ∧ OnlyObjects [key 0x2021 (i.toNat + 1)] s t
          ∧ Advanced (key 0x2021 (i.toNat + 1)) n.toNat s t
          ∧ getIsland t i.toNat = { getIsland s i.toNat with drooping := below, stretched := below || (getIsland s i.toNat).stretched }))
        ∧ (∃ t, exec (.breachWindowEnd i mhz) s = .next t ∧ (DatapathOnly { s with islands := t.islands } t ∧ (getIsland t i.toNat).breached = true ∧ Advanced (key 0x2022 (i.toNat + 1)) 1 s t
          ∧ obj t (key 0x2020 (i.toNat + 1)) =
              (if obj s (key 0x2020 (i.toNat + 1)) = 0 then mhz.toNat else min (obj s (key 0x2020 (i.toNat + 1))) mhz.toNat)))))

/-- The word code (R331). The H_j are the 7-bit values with at least two bits set, rising; check bits 0 to 6 are the XORs of the data bits
that they select, check bit 7 that of all data bits and check bits 0 to 6. Reading forms the syndrome and the parity, and answers
clean, corrected or uncorrectable as the five cases say; the croak uses the code (R331's last sentence, of the word that R308 builds and R309
takes). So a word is read back as written, one flipped bit
anywhere in its 72 is corrected, and two are detected. -/
def Obligations.WordCode : Prop :=
  let odd (n : Nat) : Bool := n % 2 == 1
  let sel (d k : Nat) : Bool := odd ((List.range 64).filter (fun j => bitAt d j && bitAt (hOf j) k)).length
  (hOf 0 = 3 ∧ (∀ j, j < 64 → hOf j < 128 ∧ 2 ≤ popcount 7 (hOf j)) ∧ (∀ i j, i < j → j < 64 → hOf i < hOf j)
    ∧ ∀ v, 2 ≤ popcount 7 v → v ≤ hOf 63 → ∃ j, j < 64 ∧ hOf j = v)
  ∧ (∀ d : Nat, d < 2 ^ 64 → fld (protect d).toNat 0 64 = d ∧ (∀ k, k < 7 → bitAt (protect d).toNat (64 + k) = sel d k)
      ∧ bitAt (protect d).toNat 71 = odd (popcount 64 d + popcount 7 (fld (protect d).toNat 64 7)))
  ∧ (∀ (w : BitVec 72) (syn : Nat), syn < 128 →
      (∀ k, k < 7 → bitAt syn k = (sel (fld w.toNat 0 64) k ^^ bitAt w.toNat (64 + k))) →
      let d := fld w.toNat 0 64
      let e := popcount 72 w.toNat % 2
      (syn = 0 → e = 0 → readWord w = .clean d) ∧ (syn = 0 → e = 1 → readWord w = .corrected d)
      ∧ (∀ k, k < 7 → syn = 2 ^ k → e = 1 → readWord w = .corrected d)
      ∧ (∀ j, j < 64 → syn = hOf j → e = 1 → readWord w = .corrected (d ^^^ 2 ^ j))
      ∧ ((syn ≠ 0 ∧ e = 0) ∨ (syn ≠ 0 ∧ (∀ k, k < 7 → syn ≠ 2 ^ k) ∧ ∀ j, j < 64 → syn ≠ hOf j) → readWord w = .bad d))
  ∧ (∀ (s : State) (f : Bool), ∃ d, croakWord s f = protect d)
  ∧ (∀ (s : State) (w : BitVec 72), croakValid s w = true → (readWord w).isBad = false)
  ∧ (∀ d : Nat, d < 2 ^ 64 → readWord (protect d) = .clean d)
  ∧ (∀ d j : Nat, d < 2 ^ 64 → j < 72 → readWord (protect d ^^^ BitVec.ofNat 72 (2 ^ j)) = .corrected d)
  ∧ (∀ d i j : Nat, d < 2 ^ 64 → i < j → j < 72 →
      (readWord (protect d ^^^ BitVec.ofNat 72 (2 ^ i) ^^^ BitVec.ofNat 72 (2 ^ j))).isBad = true)

/-! ## The link -/

/-- The link layer (R290, R291): at LINK_UP of a working port after the start a resync request leaves; LINK_DOWN drops the link: no
sequence number, window or accepted format stays, and the loss of an UP port counts; RESYNC_REPEAT sends the request again, but in a test
slot, where no frame leaves (R240), it is held back; at RESYNC_TIMEOUT resynchronisation begins again.
Completes: LINK_UP, LINK_DOWN, RESYNC_REPEAT, RESYNC_TIMEOUT. -/
def Obligations.LinkLayer : Prop :=
  ∀ (p : BitVec 4) (s : State), p.toNat < nPorts s.hw →
    let i := p.toNat
    let a := getPort s i
    let sent (t : State) : Prop := ∃ f tci src, t.out = .frame i f tci src :: s.out ∧ fhType f = 2 ∧ fhCount f = 0 ∧ f.containers = []
    let works : Prop := a.fenced = false ∧ s.faults.fatal = false ∧ s.boot.phase = .ready
    (a.layerUp = false → works → s.plan.testSlot = false →
      ∃ t, exec (.linkUp p) s = .next t ∧ t = { s with ports := t.ports, objs := t.objs, out := t.out } ∧ OnlyPort i s t
        ∧ (getPort t i).layerUp = true ∧ (getPort t i).st = 1 ∧ (getPort t i).partnerSeen = false ∧ sent t ∧ Advanced (lk i 11) 1 s t)
    ∧ (a.layerUp = true → powered s = true → LinksIdle s → PacksIdle s →
      ∃ t, exec (.linkDown p) s = .next t
        ∧ (let b := getPort t i
           b.layerUp = false ∧ b.st = 0 ∧ b.txF = 0 ∧ b.txC = 0 ∧ b.rxF = 0 ∧ b.rxC = 0 ∧ b.window = [] ∧ b.rxOpen = []
           ∧ b.partnerSeen = false ∧ obj t (lk i 5) = 0 ∧ (a.st = 2 → Advanced (lk i 18) 1 s t)))
    ∧ (a.st = 1 → a.partnerSeen = false → s.faults.fatal = false → s.boot.phase = .ready →
      (s.plan.testSlot = false →
        ∃ t, exec (.resyncRepeat p) s = .next t ∧ t = { s with objs := t.objs, out := t.out } ∧ OnlyObjects [lk i 11] s t ∧ sent t)
      ∧ (s.plan.testSlot = true →
        ∃ t, exec (.resyncRepeat p) s = .next t ∧ t = { s with ports := t.ports } ∧ OnlyPort i s t ∧ 2 ∈ (getPort t i).owed))
    ∧ (a.st = 1 → a.layerUp = true → works → s.plan.testSlot = false →
      ∃ t, exec (.resyncTimeout p) s = .next t ∧ t = { s with ports := t.ports, objs := t.objs, out := t.out } ∧ OnlyPort i s t
        ∧ (getPort t i).st = 1 ∧ (getPort t i).partnerSeen = false ∧ sent t)

/-- What arrives at a port (R275, R281 to R283, R291): a good frame in sequence is counted and takes its number; its trailer settles the oldest
VCOUNT containers in order, none of which is open any more: RETRACT_RX counts those that VBITS retracts; what a confirmed one gave loses its
tag; what a retracted one gave becomes poisoned: the slot that still holds its tag, the tiles that depend on it, the container in the receive
buffer (Table 11.5), unless it was poisoned already (R303). A data frame's containers take the next container numbers in order behind those
that the buffer holds (dropped ones keep their place there, log 70), and one that the receive buffer cannot take is not taken at all (R277). A
resync request, of whatever epoch, is recorded and acknowledged; an acknowledge of the own epoch brings a port that has seen its partner UP
with its counters at zero, one of another epoch makes it HELD. Completes: VERDICT_FRAME_RX, DATA_FRAME_RX, RESYNC_REQUEST_RX, RESYNC_ACK_RX. -/
def Obligations.FramesArrive : Prop :=
  ∀ (p : BitVec 4) (f : Frame) (s : State), p.toNat < nPorts s.hw →
    let i := p.toNat
    let a := getPort s i
    let n := ftVcount f
    let seq (k : Nat) : Nat := (a.rxV + k) % 65536
    let settled (t : State) : Prop :=
      (getPort t i).rxF = (a.rxF + 1) % 65536 ∧ (getPort t i).rxV = (a.rxV + n) % 65536 ∧ Advanced (lk i 12) 1 s t
      ∧ Advanced (lk i 14) ((List.range n).filter (ftVbit f)).length s t ∧ ∀ k, k < n → seq k ∉ (getPort t i).rxOpen
    a.layerUp = true → a.fenced = false → a.st ≠ 0 → a.ethMode = 0 → s.faults.fatal = false → frameWhole f = true → LinksQuiet s →
    PacksIdle s →
    (f.containers = [] → fhType f = 1 → a.st = 2 → frameInSequence a f = true → n ≤ 64 → fhEpoch f = epochOf s % 4096 →
      ∃ t, exec (.verdictFrameRx p f) s = .next t ∧ DatapathOnly s t ∧ settled t ∧ (getPort t i).rxC = a.rxC
        ∧ (getPort t i).rxOpen = a.rxOpen.filter (fun x => (List.range n).all (fun k => seq k != x))
        ∧ (getPort t i).buf = a.buf.map (fun e => match (List.range n).find? (fun k => seq k == e.seq) with
            | some k => if e.verdict = .unsettled then
                { e with verdict := if ftVbit f k && !a.rxPoisoned.contains e.seq then .retracted else .confirmed } else e
            | none => e)
        ∧ (∀ c k slot, c < nClusters s.hw → k < n → (padSlot (getCl s c) slot).pend = some (i, seq k) →
            padSlot (getCl t c) slot = (if ftVbit f k && !a.rxPoisoned.contains (seq k) then
              { padSlot (getCl s c) slot with poison := true, pend := none, retracted := true }
              else { padSlot (getCl s c) slot with pend := none }))
        ∧ (∀ c k, c < nClusters s.hw → k < n → ftVbit f k = true → a.rxPoisoned.contains (seq k) = false →
            ∀ e ∈ (getCl t c).tiles, rangesHold i (seq k) e.2.ranges = true → e.2.poison = true ∧ ∀ x ∈ e.2.toPack, ∀ w ∈ x.words, w = accPois))
    ∧ (fhType f = 0 → a.st = 2 → bufferTakes a f = true → frameInSequence a f = true → n ≤ 64 → fhEpoch f = epochOf s % 4096 →
      ∃ t, exec (.dataFrameRx p f) s = .next t ∧ DatapathOnly s t ∧ settled t
        ∧ (getPort t i).rxC % 65536 = (a.rxC + fhCount f) % 65536 ∧ (getPort t i).buf.length = a.buf.length + fhCount f
        ∧ ((getPort t i).buf.take a.buf.length).map (fun e => (e.block, e.channel, e.seq, e.hop)) = a.buf.map (fun e => (e.block, e.channel, e.seq, e.hop))
        ∧ ((getPort t i).buf.drop a.buf.length).map (fun e => (e.channel, e.seq, e.hop, e.sat)) =
            (List.range (fhCount f)).map (fun k => (fhChannel f, (fhCseq f + k) % 65536, fhHop f, fhSat f)))
    ∧ (fhType f = 0 → a.st = 2 → bufferTakes a f = false → exec (.dataFrameRx p f) s = .next s)
    ∧ (f.containers = [] → fhType f = 2 → a.st = 1 → frameInSequence a f = true → s.boot.phase = .ready → s.plan.testSlot = false →
      ∃ t, exec (.resyncRequestRx p f) s = .next t ∧ t = { s with ports := t.ports, objs := t.objs, out := t.out }
        ∧ (getPort t i).partnerSeen = true ∧ obj t (lk i 2) = fhSrc f ∧ obj t (lk i 3) = fhEpoch f ∧ obj t (lk i 5) = ftVbits f
        ∧ Advanced (lk i 12) 1 s t ∧ ∃ g tci src, t.out = .frame i g tci src :: s.out ∧ fhType g = 3)
    ∧ (f.containers = [] → fhType f = 3 → a.st = 1 → frameInSequence a f = true → a.partnerSeen = true → fhEpoch f = epochOf s % 4096 →
      ∃ t, exec (.resyncAckRx p f) s = .next t ∧ DatapathOnly s t ∧ (getPort t i).st = 2 ∧ (getPort t i).txF = 0 ∧ (getPort t i).txC = 0
        ∧ (getPort t i).rxF = 0 ∧ (getPort t i).rxC = 0 ∧ Advanced (lk i 12) 1 s t)
    ∧ (f.containers = [] → fhType f = 3 → a.st = 1 → frameInSequence a f = true → fhEpoch f ≠ epochOf s % 4096 →
      ∃ t, exec (.resyncAckRx p f) s = .next t ∧ getPort t i = { a with st := 3, heldEpoch := fhEpoch f } ∧ Advanced (lk i 12) 1 s t
        ∧ Advanced (lk i (if (fhEpoch f + 4096 - epochOf s % 4096) % 4096 ≤ 2047 then 16 else 15)) 1 s t)

/-- VERDICT_ONLY_SEND (R274): an UP port with settled verdicts, whose sequencer is idle, sends them in a frame of their own.
VERDICT_TIMEOUT (R285, R290): outside test slots a port that has held a container unsettled retracts it and treats the link as lost: with the
link layer up it enters RESYNC and its request leaves, its sequence numbers, its window and the accepted formats gone; with nothing open, or
in a test slot, nothing happens. CHORUS_COMBINE (R298):
with an upstream and a local container present and room for the output, one output of the port is made, one hop further than the
upstream container. That RETRACT_RX advances once, however many containers a lost link retracts, is the model's reading (log 68). Completes: VERDICT_ONLY_SEND, VERDICT_TIMEOUT, CHORUS_COMBINE. -/
def Obligations.VerdictsAndChorus : Prop :=
  (∀ (p : BitVec 4) (s : State), p.toNat < nPorts s.hw →
    let i := p.toNat
    (getPort s i).st = 2 → verdictsDue s i = true → s.plan.testSlot = false → s.faults.fatal = false →
    (getSeq s (32 + i)).running = false → (∀ q, (getSeq s q).transfer = none) →
    ∃ t, exec (.verdictOnlySend p) s = .next t ∧ t = { s with ports := t.ports, objs := t.objs, out := t.out } ∧ OnlyPort i s t
      ∧ (getPort t i).txF = ((getPort s i).txF + 1) % 65536
      ∧ (getPort t i).window = (knownVerdicts s (getPort s i).window).2
      ∧ ∃ f tci src, t.out = .frame i f tci src :: s.out ∧ fhType f = 1 ∧ f.containers = []
        ∧ ftVcount f = (knownVerdicts s (getPort s i).window).1.length % 128 ∧ ftVbase f = oldestOpen (getPort s i) % 65536)
  ∧ (∀ (p : BitVec 4) (s : State), p.toNat < nPorts s.hw →
    let i := p.toNat
    let a := getPort s i
    ((a.rxOpen = [] ∨ s.plan.testSlot = true) → exec (.verdictTimeout p) s = .next s)
    ∧ (a.rxOpen ≠ [] → s.plan.testSlot = false → a.layerUp = true → a.fenced = false → a.st = 2 → s.faults.fatal = false →
      s.boot.phase = .ready → (∀ q, (getSeq s q).transfer = none) → s.eaHold = [] → (∀ j, (getPort s j).hold = []) → PacksIdle s →
      ∃ t, exec (.verdictTimeout p) s = .next t
        ∧ (let b := getPort t i
           b.rxOpen = [] ∧ b.st = 1 ∧ b.partnerSeen = false ∧ b.txF = 0 ∧ b.txC = 0 ∧ b.rxF = 0 ∧ b.rxC = 0 ∧ b.window = [] ∧ b.layerUp = true)
        ∧ obj t (lk i 5) = 0 ∧ Advanced (lk i 14) 1 s t ∧ Advanced (lk i 18) 1 s t ∧ Advanced (lk i 11) 1 s t
        ∧ bitAt (obj t (key 0x2050 5)) 2 = true ∧ t.hist = s.hist ∧ t.twin = s.twin ∧ t.boot = s.boot
        ∧ ∃ f tci src l, t.out = .frame i f tci src :: l ∧ fhType f = 2 ∧ f.containers = []))
  ∧ (∀ (p : BitVec 4) (s : State) (x n up : Nat) (u : RxItem) (i : PackItem) (rest : List PackItem), p.toNat < nPorts s.hw →
    (∀ q, (getSeq s q).transfer = none) → chorusJob s p.toNat = some (x, n) → rxFirst s (xdChannel x) = some (up, u) →
    linkItems s (physicalOf s (xdCluster x)) p.toNat = i :: rest → (getPort s p.toNat).chPaired < n →
    (getPort s p.toNat).chOut.length < 64 → s.plan.testSlot = false → (getPort s p.toNat).fenced = false → s.faults.fatal = false →
    ∃ t, exec (.chorusCombine p) s = .next t ∧ DatapathOnly s t ∧ (getPort t p.toNat).chPaired = (getPort s p.toNat).chPaired + 1
      ∧ (getPort t p.toNat).nextCh = (getPort s p.toNat).nextCh + 1
      ∧ ∃ o : ChItem, (getPort t p.toNat).chOut = (getPort s p.toNat).chOut ++ [o] ∧ o.hop = u.hop + 1
        ∧ o.id = (getPort s p.toNat).nextCh ∧ hFormat o.block = 0x20)

/-! ## The twin -/

/-- The croak (R308 to R310): CROAK_SEND drives one word whose sequence number then advances; a croak that is not valid is ignored, a valid
one counts, ends the run of missed windows and tells its window whether it carried a split role. One with FATAL is a death at once (R310);
one of a SOLE twin is a fatal fault of the twin port, unless this twin is SOLE as well and twin 0, or joins (R317); one of a JOINING twin
begins the mirror at a split authority or a sole twin (R315; at a split one before eight windows are over: log 92), unless a silence stands
or a quiesce holds the twin port (R443). A window with a valid croak ends, and counts
towards the end of a split if the croak carried a split role, the eighth beginning the rejoin (R315) once the twin port may drive; one in which the time base was
loaded counts as neither (R445); a window without a croak counts as missed, the eighth in a row declaring silence in every role (R309, R311;
log 95); a SOLE croak at a twin that still starts changes nothing (log 94). That a TWIN_AUTH write in progress takes effect at the end of the
agreed window if the other twin agreed, is abandoned if it did not, and is taken back if the first role heard of the other shows that it did
not take effect there, is the model's choice of messages for R305 and R318 (log 97).
Completes: CROAK_SEND, CROAK_RX, CROAK_WINDOW_END. -/
def Obligations.Croaks : Prop :=
  ∀ s : State, controllerUp s = true → s.faults.fatal = false →
    let w := s.twin
    (twinDrives s = true → ∃ t, exec .croakSend s = .next t
      ∧ t = { s with twin := { w with croakSeq := w.croakSeq + 1 }, out := .twin (croakWord s false) :: s.out })
    ∧ (∀ x, croakValid s x = false → exec (.croakRx x) s = .next s)
    ∧ (∀ x, croakValid s x = true →
      let role := fld (readWord x).data 12 4
      let split := decide (role = 2 ∨ role = 3)
      let heard : Twin := { w with heard := true, heardSplit := w.heardSplit || split, missedRun := 0 }
      let only : Prop := ∃ t, exec (.croakRx x) s = .next t ∧ Advanced (key 0xB001 1) 1 s t ∧ OnlyObjects [key 0xB001 1] s t
        ∧ t = { s with objs := t.objs, twin := heard }
      (bitAt (readWord x).data 10 = false →
        (role < 4 → w.authPending = none → (w.role ≠ .splitFollower ∨ w.auth = false) → only)
        ∧ (∀ v, w.authPending = some v → w.auth = false → v ≠ ownIdx s →
          (role = 3 → w.role = .splitFollower →
            ∃ t, exec (.croakRx x) s = .next t ∧ t.twin.auth = true ∧ t.twin.role = .splitAuth ∧ t.twin.authPending = none)
          ∧ (role = 1 → w.role = .pairedFollower →
            ∃ t, exec (.croakRx x) s = .next t ∧ t.twin = { heard with auth := true, role := .pairedAuth, authPending := none }
              ∧ obj t authKey = ownIdx s)
          ∧ (role = 0 → w.role = .pairedFollower →
            ∃ t, exec (.croakRx x) s = .next t ∧ t.twin = { heard with authPending := none } ∧ OnlyObjects [key 0xB001 1] s t))
        ∧ (role = 4 → (reviving s = true ∨ (w.role = .sole ∧ s.boot.twinIdx = false)) → only)
        ∧ (role = 4 → reviving s = false → (w.role ≠ .sole ∨ s.boot.twinIdx = true) →
          ∃ t, exec (.croakRx x) s = .next t ∧ ∃ r : Report, t.faults = { s.faults with reports := s.faults.reports ++ [r] }
            ∧ r.d.source = 0x909 ∧ r.d.cls = .fatal)
        ∧ (role = 5 → (w.mirroring = true ∨ w.silent = true ∨ twinDrives s = false ∨ (w.role ≠ .splitAuth ∧ w.role ≠ .sole)) → only)
        ∧ (role = 5 → w.mirroring = false → w.silent = false → twinDrives s = true → (w.role = .splitAuth ∨ w.role = .sole) →
          ∃ t l, exec (.croakRx x) s = .next t ∧ t.twin = { heard with mirroring := true } ∧ t.out = l ++ s.out
            ∧ ∀ k ∈ sharedKeys s.hw, ∃ v, Out.twinItem (.mirrorItem k (mirrorValue s k)) v ∈ l))
      ∧ (bitAt (readWord x).data 10 = true → w.held = [] → w.shared = [] → s.dict.waiting = [] → s.boot.phase = .ready →
        ∃ t, exec (.croakRx x) s = .next t ∧ t.twin.role = .sole ∧ t.twin.silent = false ∧ t.twin.authPending = none
          ∧ t.twin.mirroring = false ∧ obj t (key 0xB000 7) = 2 * 2 ^ 62 + s.clock.time % 2 ^ 62
          ∧ (w.role ≠ .sole → t.twin.auth = true ∧ Advanced (key 0xB001 5) 1 s t ∧ t.plan.takeover = framesRun s)))
    ∧ (w.skipWindow = true → w.authPending = none → exec .croakWindowEnd s
        = .next { s with twin := { w with heard := false, heardSplit := false, skipWindow := false } })
    ∧ (w.skipWindow = false → w.heard = true → w.authPending = none → (w.heardSplit = false ∨ w.validRun + 1 ≠ 8 ∨ w.silent = true) → exec .croakWindowEnd s
        = .next { s with twin := { w with heard := false, heardSplit := false, validRun := if w.heardSplit then w.validRun + 1 else 0 } })
    ∧ (w.skipWindow = false → w.heard = true → w.authPending = none → w.heardSplit = true → w.validRun + 1 = 8 → w.silent = false →
      twinDrives s = false → exec .croakWindowEnd s
        = .next { s with twin := { w with heard := false, heardSplit := false, validRun := 7 } })
    ∧ (w.skipWindow = false → w.heard = true → w.authPending = none → w.heardSplit = true → w.validRun + 1 = 8 → w.silent = false →
      twinDrives s = true → ∃ t l, exec .croakWindowEnd s = .next t ∧ t.out = l ++ s.out ∧ t.twin.heard = false ∧ t.twin.heardSplit = false
        ∧ (w.role = .splitAuth → w.mirroring = false → t.twin.role = .splitAuth ∧ t.twin.mirroring = true
            ∧ ∀ k ∈ sharedKeys s.hw, ∃ v, Out.twinItem (.mirrorItem k (mirrorValue s k)) v ∈ l)
        ∧ (w.role = .splitFollower → t.twin.role = .joining ∧ ∀ e ∈ s.hist.twin, ∃ v, Out.twinItem (.history e) v ∈ l))
    ∧ (∀ v, w.skipWindow = false → w.heard = true → w.heardSplit = false → w.authPending = some v → w.auth ≠ decide (v = ownIdx s) →
      s.boot.phase = .ready → (∀ x ∈ s.dict.waiting, x.key = authKey) →
      let past : Twin := { w with heard := false, heardSplit := false, validRun := 0 }
      (s.clock.time / 10000 < w.authAt → exec .croakWindowEnd s = .next { s with twin := past })
      ∧ (w.authAt ≤ s.clock.time / 10000 → w.authSure = true →
        ∃ t, exec .croakWindowEnd s = .next t ∧ obj t authKey = (if v = ownIdx s then ownIdx s else 1 - ownIdx s)
          ∧ t.twin = { past with auth := decide (v = ownIdx s), role := if v = ownIdx s then .pairedAuth else .pairedFollower }
          ∧ ∀ x ∈ t.dict.waiting, x ∈ s.dict.waiting ∧ x.value ≠ v)
      ∧ (w.authAt ≤ s.clock.time / 10000 → w.authSure = false →
        ∃ t, exec .croakWindowEnd s = .next t ∧ obj t authKey = obj s authKey ∧ t.twin = { past with authPending := none }
          ∧ t.dict.waiting = []))
    ∧ (w.heard = false → w.skipWindow = false → w.authPending = none → s.dict.busOff = false →
      ∃ t, exec .croakWindowEnd s = .next t ∧ t.twin.missedRun = w.missedRun + 1 ∧ t.twin.heard = false ∧ t.twin.validRun = 0
        ∧ Advanced (key 0xB001 2) 1 s t
        ∧ (w.missedRun + 1 = 8 → w.silent = false → s.dict.waiting = [] →
            t.twin.silent = true ∧ t.twin.tries = 0 ∧ Advanced (key 0xB001 3) 1 s t))

/-- The probe of a silent twin (R311, Table 12.4): an answer with bit 7 clear splits the pair, any other is a death; an attempt that is
not the last is sent again; the last decides by whether anything acknowledged. A death leaves this twin alone with authority; one that was
SOLE already only ends the silence. Every verdict stands in LAST_VERDICT. A split finds authority where it was (R318);
of a TWIN_AUTH write that took effect here and is not known to have taken effect there, log 97 speaks. Completes: PROBE_REPLY, PROBE_TIMEOUT. -/
def Obligations.Probes : Prop :=
  ∀ s : State, s.twin.silent = true → s.faults.fatal = false → s.twin.held = [] → s.twin.shared = [] → s.dict.waiting = [] →
    s.boot.phase = .ready →
    let verdict (v : Nat) (t : State) : Prop := t.twin.silent = false ∧ obj t (key 0xB000 7) = v * 2 ^ 62 + s.clock.time % 2 ^ 62
    let death (t : State) : Prop := t.twin.role = .sole ∧ verdict 2 t
      ∧ (s.twin.role ≠ .sole → t.twin.auth = true ∧ t.twin.deadDies = true ∧ Advanced (key 0xB001 5) 1 s t ∧ t.plan.takeover = framesRun s)
    let split (v : Nat) (t : State) : Prop := t.twin.role = (if s.twin.auth then .splitAuth else .splitFollower) ∧ verdict v t
      ∧ Advanced (key 0xB001 4) 1 s t
    (∀ v : BitVec 8, bitAt v.toNat 7 = true → ∃ t, exec (.probeReply (.state v)) s = .next t ∧ death t)
    ∧ (∀ v : BitVec 8, bitAt v.toNat 7 = false → s.twin.authPending = none →
        ∃ t, exec (.probeReply (.state v)) s = .next t ∧ split 1 t)
    ∧ (∀ v, ∃ t, exec (.probeReply (.error v)) s = .next t ∧ death t)
    ∧ (∀ a, s.twin.tries + 1 < obj s (key 0xB000 4) →
        ∃ t, exec (.probeTimeout a) s = .next t ∧ t = { s with twin := t.twin, out := t.out } ∧ t.twin.tries = s.twin.tries + 1
          ∧ t.twin.silent = true ∧ t.twin.acked = (s.twin.acked || a))
    ∧ (∀ a, obj s (key 0xB000 4) ≤ s.twin.tries + 1 → (s.twin.acked || a) = true → s.dict.busOff = false →
        ∃ t, exec (.probeTimeout a) s = .next t ∧ death t)
    ∧ (∀ a, obj s (key 0xB000 4) ≤ s.twin.tries + 1 → ((s.twin.acked || a) = false ∨ s.dict.busOff = true) →
        ∃ t, exec (.probeTimeout a) s = .next t ∧ split 3 t)

/-- What the twin port brings (R305 to R307, R315): at the follower a shared write that the authority assigned is applied where no
frames run, with its generation, and acknowledged; a history entry is kept once, in the order of its numbers; a staged package waits for its
install; and the completed handshake gives authority to twin 0, or to the twin that has it, and clears the scale files and the region table
(R392, step 9). A silent twin takes nothing (R311). While a
warm start holds the twin port, what arrives is kept (R443; log 192). TWIN_AUTH (R305, R318), between paired twins, by messages that are the
model's choice (log 97): a write that changes nothing is complete at once; the holder that is written, or asked, grants authority from the end
of a croak window that it names; the other agrees; the holder confirms. Nothing moves before that window ends, so authority is held by one
twin throughout. Completes: TWIN_MESSAGE_RX, MIRROR_COMPLETE, TWIN_AUTH_WRITE. -/
def Obligations.TwinTraffic : Prop :=
  (∀ (m : TwinMsg) (s : State), s.twin.silent = true → exec (.twinMessageRx m) s = .next s)
  ∧ (∀ s : State, controllerUp s = true → twinDrives s = true → s.faults.fatal = false → s.twin.silent = false →
    (∀ (g : BitVec 16) (k v target : Nat) (own : Bool), s.twin.role = .pairedFollower → s.twin.shared = [] → s.dict.waiting = [] →
      framesRun s = false → k ≠ authKey → k ≠ epochKey → k ≠ key 0x9000 5 → k ≠ key 0x8000 3 → k ≠ key 0xB000 5 →
      ∃ t, exec (.twinMessageRx (.shareAssigned g k v target own)) s = .next t ∧ obj t k = v ∧ obj t (key 0xB000 5) = g.toNat
        ∧ OnlyObjects [k, key 0xB000 5] s t ∧ t.twin.gen = g.toNat ∧ t.twin.shared = []
        ∧ ∃ w, t.out = .twinItem (.shareAck g) w :: s.out)
    ∧ (∀ e : HistEntry, e.twin ≠ s.boot.twinIdx →
      ∃ t, exec (.twinMessageRx (.history e)) s = .next t ∧ t = { s with hist := t.hist } ∧ t.hist.own = s.hist.own
        ∧ t.hist.twin = (if s.hist.twin.any (fun x => x.seq == e.seq) then s.hist.twin else insertSeq e (roomFor s.hist.twin)))
    ∧ (∀ l, exec (.twinMessageRx (.staged l)) s = .next { s with tests := { s.tests with fromFollower := some l } })
    ∧ (∀ (n : BitVec 12) (theirs : Bool), s.boot.phase = .handshake → s.boot.epochGiven = none → s.twin.mirrorIn = [] → s.twin.held = [] →
      ∃ t, exec (.mirrorComplete n theirs) s = .next t ∧ obj t (key 0x1010 2) = n.toNat ∧ t.twin.auth = (!theirs && !s.boot.twinIdx)
        ∧ t.boot.phase = .epochWait
        ∧ t.twin.role = (if !theirs && !s.boot.twinIdx then .pairedAuth else .pairedFollower)
        ∧ (∀ r, r < 64 → regionEntry t r = 0) ∧ ∀ c, (getCl t c).scale = [])
    ∧ (∀ v w : Nat, PairedRole s.twin.role →
      let sends (m : TwinMsg) (a : Twin) (t : State) : Prop :=
        t = { s with twin := a, out := t.out, freeIdx := s.freeIdx + 1 } ∧ ∃ x, t.out = .twinItem m x :: s.out
      let granted (at_ : Nat) : Twin := { s.twin with authPending := some v, authAt := at_, authSure := false }
      (s.twin.auth = true → v ≠ ownIdx s →
        (s.twin.authPending ≠ some v → ∃ t, exec (.twinMessageRx (.auth 0 v w)) s = .next t
          ∧ sends (.auth 1 v (s.clock.time / 10000 + authWindows)) (granted (s.clock.time / 10000 + authWindows)) t)
        ∧ (s.twin.authPending = some v → ∃ t, exec (.twinMessageRx (.auth 2 v w)) s = .next t
          ∧ sends (.auth 3 v w) { s.twin with authSure := true } t))
      ∧ (s.twin.auth = false → v = ownIdx s →
        (∃ t, exec (.twinMessageRx (.auth 1 v w)) s = .next t ∧ sends (.auth 2 v w) (granted w) t)
        ∧ (s.twin.authPending = some v →
            exec (.twinMessageRx (.auth 3 v w)) s = .next { s with twin := { s.twin with authSure := true } }))
      ∧ ((s.twin.auth = false ∨ v = ownIdx s ∨ s.twin.authPending = some v) → exec (.twinMessageRx (.auth 0 v w)) s = .next s)
      ∧ ((s.twin.auth = true ∨ v ≠ ownIdx s) → exec (.twinMessageRx (.auth 1 v w)) s = .next s)
      ∧ ((s.twin.auth = false ∨ v = ownIdx s ∨ s.twin.authPending ≠ some v) → exec (.twinMessageRx (.auth 2 v w)) s = .next s)
      ∧ ((s.twin.auth = true ∨ v ≠ ownIdx s ∨ s.twin.authPending ≠ some v) → exec (.twinMessageRx (.auth 3 v w)) s = .next s)))
  ∧ (∀ (m : TwinMsg) (s : State), s.faults.fatal = false → s.twin.silent = false → keepsMessages s = true →
    exec (.twinMessageRx m) s = .next { s with twin := { s.twin with inbox := s.twin.inbox ++ [m] } })
  ∧ (∀ (r : Requester) (v : BitVec 8) (s : State), WriteServed r authKey s → s.twin.silent = false → presenceOpen s = true →
    flashOk s = true → v.toNat ≤ 1 → PairedRole s.twin.role → s.boot.phase = .ready → s.twin.authPending = none →
    (decide (v.toNat = ownIdx s) = s.twin.auth →
      ∃ t, exec (.twinAuthWrite r v) s = .next t ∧ t.twin = s.twin ∧ obj t authKey = obj s authKey ∧ Advanced (key 0x1200 4) 1 s t
        ∧ t.dict.waiting = s.dict.waiting)
    ∧ (decide (v.toNat = ownIdx s) ≠ s.twin.auth → s.twin.auth = true →
      ∃ t, exec (.twinAuthWrite r v) s = .next t ∧ OnlyObjects [rxKey] s t
        ∧ t.twin = { s.twin with authPending := some v.toNat, authAt := s.clock.time / 10000 + authWindows, authSure := false }
        ∧ t.dict.waiting.length = s.dict.waiting.length + 1
        ∧ ∃ w, t.out = .twinItem (.auth 1 v.toNat (s.clock.time / 10000 + authWindows)) w :: s.out)
    ∧ (decide (v.toNat = ownIdx s) ≠ s.twin.auth → s.twin.auth = false →
      ∃ t, exec (.twinAuthWrite r v) s = .next t ∧ t.twin = s.twin ∧ OnlyObjects [rxKey] s t
        ∧ t.dict.waiting.length = s.dict.waiting.length + 1 ∧ ∃ w, t.out = .twinItem (.auth 0 v.toNat 0) w :: s.out))

/-! ## The fault collector -/

/-- The collector (R356, R357, R358, Table 15.5): with nothing else waiting and the copies agreeing, a report's class is
escalated by what its source has pending; the source's state and count and the counters follow; an empty first-error record of that class
takes the report's record (Table 15.4, its temperature and voltage readings free values) with its final class and escalated mark, a full one
stays; a fatal report makes the state fatal; a source that is fenced, or the fatal state, only counts the report as suppressed (R371). Table
15.5: a second fault of a source that waits for its acknowledgement is one class worse, and marked escalated. A fatal fault of the
controller or of the dictionary path while a start attempt runs makes the attempt fail (R395). An uncorrectable word of a scale file is
a corrected fault, and clears its entry and history (R106); that what the entry gathered in the step in progress goes with them is the
model's choice (log 147). Completes: FAULT_REPORT. -/
def Obligations.ReportsProcessed : Prop :=
  (∀ (d : Detection) (s : State), srcExists s.hw d.source.toNat = true → powered s = true → s.faults.reports = [] → s.faults.acks = [] →
    let k := d.source.toNat
    let v := getSrc s k
    let e := escalate v d.cls
    let done (t : State) : Prop := exec (.faultReport (some d) none .agree) s = .next t
    (failsAttempt s d = true → done { s with boot := { s.boot with attemptFault := true } })
    ∧ (failsAttempt s d = false → (s.faults.fatal = true ∨ v.fenced = true) →
      ∃ t, done t ∧ t = { s with objs := t.objs, clusters := t.clusters, freeIdx := s.freeIdx + 1 } ∧ Advanced (key 0x7000 6) 1 s t
        ∧ (k ≠ 0x903 → OnlyObjects [key 0x7000 6] s t) ∧ (laneOf k = none → t.clusters = s.clusters))
    ∧ (failsAttempt s d = false → s.faults.fatal = false → v.fenced = false →
      ∃ t, done t ∧ (e.1 = .fatal → t.faults.fatal = true)
        ∧ (e.1 = .corrected → (getSrc t k).corr = true ∧ (getSrc t k).cont = v.cont ∧ OnlySource k s t ∧ t.faults.fatal = false
            ∧ (getSrc t k).count = min (v.count + 1) 65535 ∧ Advanced (key 0x7000 2) 1 s t ∧ t.clusters = s.clusters)
        ∧ (e.1 = .contained → (getSrc t k).cont = true ∧ (getSrc t k).corr = v.corr ∧ t.faults.fatal = false
            ∧ (k / 256 ≠ 6 → Advanced (key 0x7000 3) 1 s t))
        ∧ (e.1 ≠ .fatal → k / 256 ≠ 6 → obj s (ferOf e.1) ≠ 0 → obj t (ferOf e.1) = obj s (ferOf e.1))
        ∧ ((e.1 = .fatal ∨ k / 256 ≠ 6) → obj s (ferOf e.1) = 0 → obj t (ferOf e.1) =
            recordOf (readSensors d s) s.clock.time s.plan.frame (classCode e.1) e.2 false))
    ∧ (∀ x : BitVec 11, k / 256 = 3 → s.faults.fatal = false → v.fenced = false → v.corr = false →
      ∃ t, exec (.faultReport (some d) (some x) .agree) s = .next t ∧ (getSrc t k).corr = true ∧ (getSrc t k).cont = v.cont
        ∧ t.faults.fatal = false ∧ tget .cleared (getCl t (k % 256)).scale x.toNat = .cleared))
  ∧ (∀ v : SrcState,
      escalate v .corrected =
        (if v.corr = false then (.corrected, false) else if v.cont = false then (.contained, true) else (.fatal, true))
      ∧ escalate v .contained = (if v.cont = false then (.contained, false) else (.fatal, true))
      ∧ escalate v .fatal = (.fatal, false))

/-- Acknowledgement (R359, R360): with no report waiting, ACK_SOURCE, ACK_ALL and ACK_RECORD clear what their bits name and nothing else; a
policy clears a class whose access type is selected. Behind reports that the collector has not processed each of them waits (R356).
Completes: ACK_SOURCE, ACK_ALL, ACK_RECORD, POLICY_ACK. -/
def Obligations.Acknowledgements : Prop :=
  ∀ (r : Requester) (s : State),
    let waits (a : Ack) (t : State) : Prop :=
      t.faults = { s.faults with acks := s.faults.acks ++ [{ ahead := s.faults.reports.length, ack := a }] }
    (∀ v : BitVec 16, WriteServed r (key 0x7200 2) s → v.toNat < 2 ^ 14 → srcExists s.hw (fld v.toNat 0 12) = true →
      ∃ t, exec (.ackSource r v) s = .next t ∧ t = { s with faults := t.faults, objs := t.objs, dict := t.dict } ∧ OnlyObjects [rxKey] s t
        ∧ (s.faults.reports ≠ [] → waits (.source v.toNat) t)
        ∧ (s.faults.reports = [] →
            let k := fld v.toNat 0 12
            let x := getSrc s k
            OnlySource k s t ∧ getSrc t k = { x with corr := x.corr && !bitAt v.toNat 12, cont := x.cont && !bitAt v.toNat 13 }
            ∧ t.faults = { s.faults with src := t.faults.src }))
    ∧ (∀ v : BitVec 8, WriteServed r (key 0x7200 3) s → v.toNat ≤ 3 →
      ∃ t, exec (.ackAll r v) s = .next t ∧ OnlyObjects [rxKey] s t
        ∧ (s.faults.reports ≠ [] → waits (.all v.toNat) t)
        ∧ (s.faults.reports = [] → (∀ k, getSrc t k = { getSrc s k with
              corr := (getSrc s k).corr && !bitAt v.toNat 0, cont := (getSrc s k).cont && !bitAt v.toNat 1 })
            ∧ t.faults = { s.faults with src := t.faults.src }))
    ∧ (∀ v : BitVec 8, WriteServed r (key 0x7200 1) s → v.toNat ≤ 3 →
      ∃ t, exec (.ackRecord r v) s = .next t
        ∧ (s.faults.reports ≠ [] → OnlyObjects [rxKey] s t ∧ waits (.record v.toNat) t)
        ∧ (s.faults.reports = [] → obj t ferCorr = (if bitAt v.toNat 0 then 0 else obj s ferCorr)
            ∧ obj t ferCont = (if bitAt v.toNat 1 then 0 else obj s ferCont) ∧ OnlyObjects [rxKey, ferCorr, ferCont] s t
            ∧ t.faults = s.faults))
    ∧ (∀ (k : BitVec 12) (cls : FaultClass), srcExists s.hw k.toNat = true →
      ∃ t, exec (.policyAck k cls) s = .next t ∧ t = { s with faults := t.faults }
        ∧ (s.faults.reports ≠ [] → waits (.policy k.toNat cls) t)
        ∧ (s.faults.reports = [] →
            let x := getSrc s k.toNat
            OnlySource k.toNat s t ∧ t.faults = { s.faults with src := t.faults.src }
            ∧ (cls = .corrected → getSrc t k.toNat = { x with corr := x.corr && !bitAt (obj s (key 0x7200 4)) x.corrAccess })
            ∧ (cls = .contained → getSrc t k.toNat
                = { x with cont := x.cont && !(x.contRow || bitAt (obj s (key 0x7200 5)) x.contAccess) })
            ∧ (cls = .fatal → t = s)))

/-- FORCE and FORCE_FATAL (R364) put one forced report of the named source into the collector's queue (FORCE needs a usable flash: log 151);
KEEP of a lane (R363) lifts its fence and marks it kept, and, where it was the last fence of a fenced cluster, watch is evaluated for
every source (R388); WATCH_SET (R380) puts the source in watch, in a fenced cluster once the fence is lifted. HIST_VOID (R385)
appends a KIND 0x08 entry that names the voided one; that its record carries the voided entry's source is the model's reading (log 99).
HIST_CLEAR with this twin's bit empties its history and restarts its numbers.
Completes: FORCE, FORCE_FATAL, KEEP, WATCH_SET, HIST_VOID, HIST_CLEAR. -/
def Obligations.CollectorCommands : Prop :=
  ∀ (r : Requester) (s : State),
    (∀ v : BitVec 32, WriteServed r (key 0x7100 1) s → flashOk s = true → forceOk s v.toNat = true →
      ∃ t, exec (.force r v) s = .next t ∧ OnlyObjects [rxKey] s t ∧ t.hist = s.hist
        ∧ ∃ x : Report, t.faults = { s.faults with reports := s.faults.reports ++ [x] } ∧ x.forced = true
          ∧ x.d.source = BitVec.ofNat 12 (fld v.toNat 0 12) ∧ x.d.access = BitVec.ofNat 4 (fld v.toNat 16 4)
          ∧ x.d.cls = (if fld v.toNat 12 2 = 1 then .corrected else .contained))
    ∧ (∀ v : BitVec 16, PresenceServed r (key 0x7100 2) s → v.toNat < 4096 → srcExists s.hw v.toNat = true →
      ∃ t, exec (.forceFatal r v) s = .next t ∧ t.faults.fatal = false ∧ obj t (key 0x7100 2) = v.toNat ∧ Advanced (key 0x1200 4) 1 s t
        ∧ ∃ x : Report, t.faults = { s.faults with reports := s.faults.reports ++ [x] } ∧ x.forced = true ∧ x.d.cls = .fatal
          ∧ x.d.source = BitVec.ofNat 12 v.toNat)
    ∧ (∀ v : BitVec 16, PresenceServed r (key 0x7300 1) s → v.toNat < 0x220 → srcExists s.hw v.toNat = true →
      (getSrc s v.toNat).fenced = true →
      ∃ t, exec (.keep r v) s = .next t ∧ Advanced (key 0x1200 4) 1 s t ∧ (∃ e : HistEntry, e.kind = 6 ∧ e ∈ t.hist.own)
        ∧ (∀ k, getSrc t k = { getSrc s k with
              fenced := (getSrc s k).fenced && k != v.toNat, kept := (getSrc s k).kept || k == v.toNat, watch := (getSrc t k).watch })
        ∧ ((getCl s (v.toNat / 17)).fenced = false → ∀ k, (getSrc t k).watch = (getSrc s k).watch))
    ∧ (∀ v : BitVec 16, WriteServed r (key 0x8010 4) s → v.toNat < 4096 → srcExists s.hw v.toNat = true →
      ∃ t, exec (.watchSet r v) s = .next t ∧ v.toNat ∈ t.tests.watchSet ∧ (∀ k ∈ s.tests.watchSet, k ∈ t.tests.watchSet)
        ∧ (inFencedCluster s v.toNat = false → (getSrc t v.toNat).watch = true) ∧ OnlyObjects [rxKey] s t)
    ∧ (∀ (v : BitVec 32) (e : HistEntry), PresenceServed r (key 0x9000 4) s → s.hist.own.length < histMax →
      s.hist.own.find? (fun x => x.seq.toNat == v.toNat) = some e →
      ∃ t, exec (.histVoid r v) s = .next t
        ∧ ∃ x : HistEntry, t.hist.own = s.hist.own ++ [x] ∧ x.kind = 8 ∧ x.ref = v ∧ x.seq = BitVec.ofNat 32 s.hist.nextSeq
          ∧ rcSource x.record.toNat = rcSource e.record.toNat)
    ∧ (∀ v : BitVec 8, PresenceServed r (key 0x9000 5) s → 1 ≤ v.toNat → v.toNat ≤ 3 → bitAt v.toNat (b2n s.boot.twinIdx) = true →
      ∃ t, exec (.histClear r v) s = .next t ∧ t.hist.own = [] ∧ t.hist.nextSeq = 0 ∧ Advanced (key 0x1200 4) 1 s t
        ∧ (bitAt v.toNat (b2n (!s.boot.twinIdx)) = false → t.hist.twin = s.hist.twin))

/-! ## Dictionary: shared objects, loads, moult -/

/-- Shared writes (R306, R288, R386), at a twin that decides alone with no frames running: each takes the next generation at once.
EPOCH_WRITE puts the epoch in force and into the identity block; TC_DISCARD drops the staged package, TC_REMOVE the package of TC_SEL,
and TC_INSTALL refuses the staged image by its code or begins writing it to its slot.
Completes: EPOCH_WRITE, TC_DISCARD, TC_REMOVE, TC_INSTALL. -/
def Obligations.SharedWrites : Prop :=
  ∀ (r : Requester) (s : State), DecidesAlone s →
    let next (t : State) : Prop := t.twin.gen = (s.twin.gen + 1) % 65536 ∧ obj t (key 0xB000 5) = (s.twin.gen + 1) % 65536
    (∀ v : BitVec 16, WriteServed r epochKey s → flashOk s = true → LinksIdle s → PacksIdle s → v.toNat < 4096 →
      1 ≤ (v.toNat + 4096 - epochOf s % 4096) % 4096 → (v.toNat + 4096 - epochOf s % 4096) % 4096 ≤ 2047 →
      ∃ t, exec (.epochWrite r v) s = .next t ∧ next t ∧ epochOf t = v.toNat ∧ obj t pendingKeyEpoch = 0
        ∧ t.boot.ident.lastEpoch = BitVec.ofNat 12 v.toNat)
    ∧ (WriteServed r (key 0x8000 3) s →
      ∃ t, exec (.tcDiscard r) s = .next t ∧ next t ∧ t.tests = { s.tests with staging := none })
    ∧ (WriteServed r (key 0x8000 3) s → flashOk s = true →
      ∃ t, exec (.tcRemove r) s = .next t ∧ next t ∧ t.tests.packages = tdel s.tests.packages (obj s (key 0x8000 4))
        ∧ t.tests.effective = tdel s.tests.effective (obj s (key 0x8000 4)) ∧ t.tests.staging = s.tests.staging)
    ∧ (∀ l c, WriteServed r (key 0x8000 3) s → flashOk s = true → s.tests.staging = some l → packageRefusal s l = some c →
        ∃ t, exec (.tcInstall r) s = .next t ∧ next t ∧ t.tests = { s.tests with staging := none, refusal := c } ∧ t.boot = s.boot)
    ∧ (∀ l k, WriteServed r (key 0x8000 3) s → flashOk s = true → s.tests.staging = some l → packageRefusal s l = none →
        packageSlot s (packageOf l) = some k →
        ∃ t, exec (.tcInstall r) s = .next t ∧ next t ∧ t.tests.staging = none ∧ t.tests.refusal = 0 ∧ t.tests.packages = s.tests.packages
          ∧ t.tests.pending = tins s.tests.pending k (packageOf l)
          ∧ t.boot.jobs = s.boot.jobs ++ [.package k (packageOf l)])

/-- The staging areas (R407, R411, R386, R402): a first segment opens the requester's write and stages nothing; the last one completes
it: the package image is staged, the patch image is staged if its header passes. Completes: TC_LOAD, FW_LOAD. -/
def Obligations.LoadsStage : Prop :=
  ∀ (r : Requester) (total off : BitVec 32) (data : List Byte) (s : State), PathFree r s → data.length ≤ segmentMax r →
    total.toNat % 256 = 0 → total.toNat ≤ 4194304 →
    let opened (k : Nat) (t : State) : Prop := openOf t k = some { key := k, by_ := r, total := total.toNat, bytes := data }
    (data.length < total.toNat → off = 0 → openOf s (key 0x8000 2) = none → s.dict.opens.length < 4 →
      ∃ t, exec (.tcLoad r total off data false) s = .next t ∧ opened (key 0x8000 2) t ∧ t.tests = s.tests ∧ OnlyObjects [rxKey] s t)
    ∧ (data.length < total.toNat → off = 0 → openOf s (key 0xC000 1) = none → s.dict.opens.length < 4 →
      ∃ t, exec (.fwLoad r total off data false) s = .next t ∧ opened (key 0xC000 1) t ∧ t.boot = s.boot ∧ OnlyObjects [rxKey] s t)
    ∧ (∀ o, off ≠ 0 → off.toNat + data.length = total.toNat → o.by_ = r → o.total = total.toNat → o.bytes.length = off.toNat →
      (openOf s (key 0x8000 2) = some o →
        ∃ t, exec (.tcLoad r total off data true) s = .next t ∧ openOf t (key 0x8000 2) = none
          ∧ t.tests = { s.tests with staging := some (o.bytes ++ data) } ∧ OnlyObjects [rxKey] s t)
      ∧ (openOf s (key 0xC000 1) = some o →
        let c := patchRefusal s (o.bytes ++ data)
        ∃ t, exec (.fwLoad r total off data true) s = .next t ∧ openOf t (key 0xC000 1) = none ∧ OnlyObjects [rxKey] s t
          ∧ t.boot = { s.boot with fwStaging := if c == 0 then some (o.bytes ++ data) else none, fwRefusal := c }))

/-- Moult (R402, R403, R391): a committed image goes to the slot that is not active and becomes its trial once the flash holds it; a
swap exchanges active and previous; a confirmed trial becomes active. A flash write that completes takes effect: an image stands in its
slot, a package is installed, the identity block's other copy governs. That a write is in progress until its completion, and that one that
fails leaves its area unreadable, a patch slot without an image, is the model's reading (log 86); that a completion with no write in progress
changes nothing (log 4), and that a package is in force only once both twins have measured it by a message (log 149), its choices.
Completes: FW_COMMIT_TRIAL, FW_COMMIT_SWAP, FW_CONFIRM, FLASH_WRITE_DONE. -/
def Obligations.Moult : Prop :=
  ∀ (r : Requester) (s : State),
    (∀ l, PresenceServed r (key 0xC000 2) s → s.boot.fwStaging = some l →
      ∃ t, exec (.fwCommitTrial r) s = .next t ∧ t.boot.fwStaging = none ∧ Advanced (key 0x1200 4) 1 s t
        ∧ ∃ b p m, t.boot.jobs = s.boot.jobs ++ [.patch b p m] ∧ p.state = 2 ∧ p.length = l.length ∧ m.length = l.length
            ∧ m.digest = p.digest ∧ slotIn s.boot.ident 1 ≠ some b)
    ∧ (∀ a b, PresenceServed r (key 0xC000 2) s → slotIn s.boot.ident 1 = some a → slotIn s.boot.ident 3 = some b →
      ∃ t, exec (.fwCommitSwap r) s = .next t ∧ (slotOf t.boot.ident b).state = 1 ∧ (slotOf t.boot.ident a).state = 3
        ∧ t.boot.running = s.boot.running)
    ∧ (∀ b, WriteServed r (key 0xC000 3) s → flashOk s = true → s.boot.running = .trial → slotIn s.boot.ident 2 = some b →
      ∃ t, exec (.fwConfirm r 1) s = .next t ∧ (slotOf t.boot.ident b).state = 1 ∧ t.boot.ident.tried = false ∧ t.boot.running = .active
        ∧ ∀ a, slotIn s.boot.ident 1 = some a → (slotOf t.boot.ident a).state = 3)
    ∧ (s.boot.jobs = [] → ∀ ok, exec (.flashWriteDone ok) s = .next s)
    ∧ (s.boot.warmPending = none →
      (∀ b p m js, s.boot.jobs = .patch b p m :: js →
        (∃ t, exec (.flashWriteDone true) s = .next t ∧ slotOf t.boot.ident b = { p with state := 2 } ∧ t.boot.ident.tried = false
          ∧ slotImage t.boot.flash b = some m)
        ∧ (∃ t, exec (.flashWriteDone false) s = .next t ∧ t.boot.ident = s.boot.ident ∧ slotImage t.boot.flash b = none))
      ∧ (∀ k p js, s.boot.jobs = .package k p :: js →
        (∃ t, exec (.flashWriteDone true) s = .next t ∧ t.boot.jobs = js ∧ t.tests.packages = tins s.tests.packages k p
          ∧ t.tests.pending = tdel s.tests.pending k ∧ t.boot.log.length = s.boot.log.length + 1
          ∧ (s.twin.role ≠ .splitAuth → t.tests.effective = s.tests.effective))
        ∧ (∃ t, exec (.flashWriteDone false) s = .next t
          ∧ t.tests = { s.tests with pending := tdel s.tests.pending k, refusal := 5 }))
      ∧ (∀ i c js, s.boot.jobs = .ident i c :: js →
        exec (.flashWriteDone true) s = .next { s with boot := { s.boot with jobs := js, flash := writeCopy i s.boot.flash } }
        ∧ exec (.flashWriteDone false) s = .next { s with boot := { s.boot with jobs := js, flash := spoilCopy s.boot.flash } }
        ∧ ∃ c, governingCopy (writeCopy i s.boot.flash) = some c ∧ c.content = i))

/-! ## Start -/

/-- A cold start (R392, R395, R396, R397, R441): with filtered PWR_OK low a start reads its straps and the identity block's governing copy
and begins its first attempt, with no fault standing; an unusable flash is a contained fault against 0x908 (R390); an attempt that
times out, or in which a fatal fault against the controller or its path was raised, is followed by the next, the third by boot-hold; a
controller that is ready goes on to the start tests, each failed attempt reported, or ends a warm start; the end of the test budget leads
to the twin handshake, or past it at a twin that a death verdict left SOLE (R316). Losing power leaves every object at its default and
keeps what the flash holds.
Completes: COLD_START, POWER_FAIL, BOOT_ATTEMPT_TIMEOUT, CONTROLLER_READY, COLD_TEST_BUDGET_END. -/
def Obligations.ColdStarts : Prop :=
  ∀ s : State,
    let failed (t : State) : Prop := t.boot.failed = s.boot.failed + 1
      ∧ (3 ≤ s.boot.attempts → t.boot.phase = .bootHold ∧ t.boot.attempts = s.boot.attempts)
      ∧ (s.boot.attempts < 3 → t.boot.phase = .attempt ∧ t.boot.attempts = s.boot.attempts + 1)
    (∀ (node : BitVec 7) (idx fl : Bool) (bad : List (Bool × BitVec 32)), s.boot.phase = .off →
      let g := governingCopy (flashKept s)
      ∃ t, exec (.coldStart node idx fl bad) s = .next t ∧ t.boot.phase = .attempt ∧ t.boot.nodeId = node ∧ t.boot.twinIdx = idx
        ∧ t.boot.attempts = 1 ∧ t.boot.failed = 0 ∧ t.faults.fatal = false ∧ obj t (key 0x1010 1) = b2n idx
        ∧ obj t (key 0xC000 10) = b2n (fl && g.isSome) ∧ t.hw = s.hw ∧ t.plan = Plan.reset
        ∧ (∀ c, g = some c → fl = true → epochOf t = c.content.lastEpoch.toNat ∧ t.boot.ident.bootCount = c.content.bootCount + 1)
        ∧ ((fl && g.isSome) = false → ∃ x ∈ t.faults.reports, x.d.source = 0x908 ∧ x.d.cls = .contained))
    ∧ (powered s = true →
      ∃ t, exec .powerFail s = .next t ∧ t.boot.phase = .off ∧ t.faults.fatal = false ∧ (∀ k, obj t k = objDefault s.hw k)
        ∧ (t.hist, t.tests.packages) = flashContent s ∧ t.boot.flash = { flashKept s with aside := none }
        ∧ (s.boot.flash.aside = none → t.hist = s.hist ∧ (s.boot.jobs = [] → t.tests.packages = s.tests.packages))
        ∧ t.hw = s.hw ∧ t.seqs = [] ∧ t.clusters = [] ∧ t.ports = [] ∧ t.pending = s.pending)
    ∧ (s.boot.phase = .attempt → s.faults.fatal = false → ∃ t, exec .bootAttemptTimeout s = .next t ∧ failed t)
    ∧ (s.boot.phase = .attempt → s.faults.fatal = false → s.boot.attemptFault = true → ∃ t, exec .controllerReady s = .next t ∧ failed t)
    ∧ (s.boot.phase = .attempt → s.faults.fatal = false → s.boot.attemptFault = false →
      (s.boot.warm = false → s.hist.own = [] → s.faults.failing = [] →
        ∃ t, exec .controllerReady s = .next t ∧ t.boot.phase = .tests ∧ t.faults.reports.length = s.faults.reports.length + s.boot.failed
          ∧ t.boot.log.length = s.boot.log.length + s.tests.packages.length)
      ∧ (s.boot.warm = true → ∃ t, exec .controllerReady s = .next t ∧ t.boot.phase = .ready))
    ∧ (∀ aborted deferred, s.boot.phase = .tests →
      (s.twin.role ≠ .sole →
        ∃ t, exec (.coldTestBudgetEnd aborted deferred) s = .next t ∧ t.boot.phase = .handshake ∧ t.twin.role = .joining
          ∧ t.tests.deferred = (allSources s.hw).filter (fun k => deferred.any (fun u => u.toNat == k))
          ∧ (aborted ≠ [] → Advanced (key 0x8020 1) aborted.length s t))
      ∧ (s.twin.role = .sole → s.boot.epochGiven = none →
        ∃ t, exec (.coldTestBudgetEnd aborted deferred) s = .next t ∧ t.boot.phase = .epochWait ∧ t.twin.role = .sole))

/-- A warm start (R394, R404, Table 17.3) and the epoch (R398): a quiesce discards the plans, the fences and the history standing; what it
empties besides is the model's reading (log 108). One asked for during an install or a commit waits for it. The start that follows clears
the selectors and, where the firmware stays (no trial slot is pending), is ready at once (log 110: the model's choice); out of boot-hold or
an attempt it makes three new attempts (log 37: its reading). The epoch written to EPOCH_ACQ, or the last one at the timeout, completes a
cold start.
Completes: WARM_QUIESCE, WARM_START, EPOCH_ACQ, EPOCH_ACQ_TIMEOUT. -/
def Obligations.WarmStartsAndEpoch : Prop :=
  ∀ s : State,
    (warmAllowed s = true → committing s = false →
      ∃ t, exec .warmQuiesce s = .next t ∧ t.boot.phase = .quiesced ∧ t.boot.heldFrom = s.boot.phase ∧ t.plan.mode = .none
        ∧ t.plan.active = none ∧ t.seqs = [] ∧ t.queues = [] ∧ t.eaHold = [] ∧ t.hist = s.hist ∧ t.faults.src = s.faults.src
        ∧ t.dict = s.dict ∧ obj t (planKey 6) = 0)
    ∧ (warmAllowed s = true → committing s = true →
      exec .warmQuiesce s = .next { s with boot := { s.boot with warmPending := some false } })
    ∧ (s.faults.fatal = false →
      (s.boot.phase = .quiesced → slotIn s.boot.ident 2 = none →
        (s.boot.heldFrom = .ready → mustRestart s = false → s.faults.failing = [] →
          ∃ t, exec .warmStart s = .next t ∧ t.boot.phase = .ready ∧ t.dict.selectors = [] ∧ t.boot.attempts = 0 ∧ t.twin.inbox = []
            ∧ t.dict.canNom = obj s (key 0x2050 1)
            ∧ (s.twin.inbox = [] → s.twin.mirrorDone = false → ∃ e ∈ t.hist.own, e.kind = 7))
        ∧ ((s.boot.heldFrom ≠ .ready ∨ mustRestart s = true) →
          ∃ t, exec .warmStart s = .next t ∧ t.boot.phase = .attempt ∧ t.dict.selectors = [] ∧ t.boot.attempts = 1
            ∧ t.dict.canNom = obj s (key 0x2050 1)))
      ∧ (s.boot.phase ≠ .quiesced → s.boot.warmPending.isSome = true →
        exec .warmStart s = .next { s with boot := { s.boot with warmPending := some true } }))
    ∧ (∀ (r : Requester) (v : BitVec 16), WriteServed r (key 0x6100 3) s → flashOk s = true → v.toNat < 4096 →
      bitAt (obj s (key 0x6100 3)) 15 = false →
      (s.boot.phase = .epochWait → s.twin.auth = true →
        ∃ t, exec (.epochAcq r v) s = .next t ∧ epochOf t = v.toNat ∧ t.boot.phase = .ready ∧ obj t (key 0x6100 3) = 0x8000 + v.toNat
          ∧ obj t (key 0x6100 4) = 2)
      ∧ ((s.boot.phase ≠ .epochWait ∨ s.twin.auth = false) →
        ∃ t, exec (.epochAcq r v) s = .next t ∧ epochOf t = epochOf s ∧ obj t (key 0x6100 3) = v.toNat
          ∧ t.boot = { s.boot with epochGiven := some v.toNat }))
    ∧ (s.boot.phase = .epochWait → s.twin.auth = true → s.faults.fatal = false →
      ∃ t, exec .epochAcqTimeout s = .next t ∧ epochOf t = s.boot.ident.lastEpoch.toNat ∧ t.boot.phase = .ready ∧ obj t (key 0x6100 4) = 4)

/-! ## The dictionary -/

/-- Writes of objects with a row of their own (R408, R250, R261, R113, R425, R397, R399): a plain object, a region entry, a retired page
and IRQ_ENABLE read back as written, and no other object moves; a scale register entry is written through the requester's window, no other
entry and no other cluster moving; the identifier override stands in the identity block, the identifier in force staying (R417: the write is
counted); a measurement register is extended, no other object moving. Completes: OBJECT_WRITE, REGION_WRITE, RET_PAGE_WRITE,
IRQ_ENABLE_WRITE, SF_ENTRY_WRITE, ID_OVERRIDE, MEAS_EXTEND. -/
def Obligations.ObjectsWritten : Prop :=
  ∀ (r : Requester) (s : State),
    (∀ (k : BitVec 24) (l : List Byte), WriteServed r k.toNat s → PlainWrite k.toNat l.length (payNum l 0 l.length) s →
      ∃ t, exec (.objectWrite r k l) s = .next t ∧ t = { s with objs := t.objs, dict := t.dict } ∧ obj t k.toNat = payNum l 0 l.length
        ∧ OnlyObjects [rxKey, k.toNat] s t)
    ∧ (∀ (n : BitVec 6) (e : BitVec 128),
      let k := key (0x3000 + n.toNat) 1
      WriteServed r k s → PlainWrite k 16 e.toNat s →
      ∃ t, exec (.regionWrite r n e) s = .next t ∧ t = { s with objs := t.objs, dict := t.dict } ∧ regionEntry t n.toNat = e.toNat
        ∧ OnlyObjects [rxKey, k] s t)
    ∧ (∀ (n : BitVec 8) (v : Word), WriteServed r (retKey n.toNat) s → PlainWrite (retKey n.toNat) 8 v.toNat s →
      ∃ t, exec (.retPageWrite r n v) s = .next t ∧ t = { s with objs := t.objs, dict := t.dict } ∧ obj t (retKey n.toNat) = v.toNat
        ∧ OnlyObjects [rxKey, retKey n.toNat] s t)
    ∧ (∀ v : BitVec 8, WriteServed r (key 0x2070 1) s → v.toNat ≤ 7 →
      ∃ t, exec (.irqEnableWrite r v) s = .next t ∧ t = { s with objs := t.objs, dict := t.dict }
        ∧ (∀ i, irqEnable t i = bitAt v.toNat i) ∧ OnlyObjects [rxKey, key 0x2070 1] s t)
    ∧ (∀ (c : BitVec 5) (sub : BitVec 8) (v : BitVec 16), c.toNat < nClusters s.hw → 2 ≤ sub.toNat → sub.toNat ≤ 129 →
      WriteServed r (key (0x4100 + c.toNat) sub.toNat) s → (v = 0 ∨ 128 ≤ fld v.toNat 8 8) → scaleBusy s c.toNat = false →
      let e := selector s r (key (0x4100 + c.toNat) 1) + (sub.toNat - 2)
      ∃ t, exec (.sfEntryWrite r c sub v) s = .next t ∧ OnlyCluster c.toNat s t ∧ OnlyObjects [rxKey] s t
        ∧ (tget .cleared (getCl t c.toNat).scale e).val = v
        ∧ ∀ j, j ≠ e → tget .cleared (getCl t c.toNat).scale j = tget .cleared (getCl s c.toNat).scale j)
    ∧ (∀ v : BitVec 16, PresenceServed r (key 0x1008 2) s → (v = 0xFFFF ∨ v.toNat % 2 = b2n s.boot.twinIdx) →
      ∃ t, exec (.idOverride r v) s = .next t ∧ t.boot.ident = { s.boot.ident with idOverride := v } ∧ obj t (key 0x1008 2) = v.toNat
        ∧ Advanced (key 0x1200 4) 1 s t ∧ instanceId t = instanceId s)
    ∧ (∀ (reg : BitVec 8) (d : BitVec 384), WriteServed r (key 0x1101 1) s → flashOk s = true → (reg = 6 ∨ reg = 7) →
      let k := key 0x1100 (reg.toNat + 1)
      ∃ t, exec (.measExtend r reg d) s = .next t
        ∧ obj t k = (digestNum (sha384 (toBytes 48 (obj s k) ++ toBytes 48 d.toNat))).toNat ∧ OnlyObjects [rxKey, k] s t
        ∧ t.boot.log.length = s.boot.log.length + 1)

/-- The management port (R408, R410 to R412): a READ that passes its checks is answered from a snapshot of the whole value, one that fails
by an error with its code, a malformed one by 0x0A, one whose residue check fails by 0x0B and a contained fault against 0x904; a WRITE of
a plain object in one frame is done and answered; an ABORT ends the requester's transfer without a reply, one of an absent object is
answered by its error; where the ROM responder serves
(R393) every other request is answered busy; a request repeated as it was is answered from the reply kept, and not served again; one that
must wait takes a place in the buffer of seven, or is dropped and counted. READ and WRITE are stated at offset 0. That a byte 3 other than
zero makes a READ malformed is the model's reading (log 117), and so is that a repeated request leaves RN_RX as it was (log 118).
Completes: READ, WRITE, ABORT. -/
def Obligations.CanRequests : Prop :=
  ∀ (m : CanReq) (s : State),
    let k := reqKey m
    let me := ownNode s
    let sw := rateSwitch s
    let error (code off : Nat) : Out :=
      .can (canId 6 m.src me m.tag.toNat) (padPayload (objHead k ++ bytesOf 1 code ++ bytesOf 4 off)) sw
    (RequestTaken m s →
      (∀ f, 8 ≤ m.payload.length → payByte m.payload 3 = 0 → payNum m.payload 4 4 = 0 → readCheck (.can m.src) s k = 0 →
        findFam s.hw k = some f →
        ∃ t, exec (.read m) s = .next t
          ∧ snapOf t (.can m.src) = some { key := k, bytes := toBytes f.len (readObj (.can m.src) (bump rxKey 1 s) k) }
          ∧ ∃ p, t.out = .can (canId 3 m.src me m.tag.toNat) p sw :: s.out)
      ∧ (8 ≤ m.payload.length → payByte m.payload 3 = 0 → readCheck (.can m.src) s k ≠ 0 →
        ∃ t, exec (.read m) s = .next t ∧ t = { s with objs := t.objs, dict := t.dict, out := t.out } ∧ Advanced (key 0x2050 9) 1 s t
          ∧ t.out = error (readCheck (.can m.src) s k) (payNum m.payload 4 4) :: s.out)
      ∧ (romServes s = false → (m.payload.length < 8 ∨ payByte m.payload 3 ≠ 0) →
        ∃ t, exec (.read m) s = .next t ∧ t = { s with objs := t.objs, dict := t.dict, out := t.out } ∧ Advanced (key 0x2050 9) 1 s t
          ∧ t.out = error 0x0A (payNum m.payload 4 4) :: s.out)
      ∧ (∀ syn, romServes s = false → 8 ≤ m.payload.length → payByte m.payload 3 = 0 →
        ∃ t, exec (.read m) { s with dict := { s.dict with residueBad := some syn } } = .next t ∧ t.dict.residueBad = none
          ∧ t.out = error 0x0B (payNum m.payload 4 4) :: s.out
          ∧ ∃ x : Report, t.faults = { s.faults with reports := s.faults.reports ++ [x] } ∧ x.d.source = 0x904 ∧ x.d.cls = .contained
            ∧ x.d.access = 2 ∧ x.d.syndrome = syn)
      ∧ (∀ n, PathFree (.can m.src) s → openOf s k = none → m.payload.length = 12 + n → n ≤ 52 →
        payByte m.payload 3 = 1 → payNum m.payload 4 4 = n → payNum m.payload 8 4 = 0 → PlainWrite k n (payNum m.payload 12 n) s →
        ∃ t, exec (.write m) s = .next t ∧ t = { s with objs := t.objs, dict := t.dict, out := t.out } ∧ obj t k = payNum m.payload 12 n
          ∧ ∃ p, t.out = .can (canId 5 m.src me m.tag.toNat) p sw :: s.out)
      ∧ (3 ≤ m.payload.length → romServes s = false → objExists s.hw k = false →
        ∃ t, exec (.abort m) s = .next t ∧ t.out = error 1 0 :: s.out ∧ t.dict.opens = s.dict.opens ∧ t.dict.snaps = s.dict.snaps)
      ∧ (3 ≤ m.payload.length → romServes s = false → objExists s.hw k = true →
        ∃ t, exec (.abort m) s = .next t ∧ t.out = s.out ∧ OnlyObjects [rxKey] s t
          ∧ (∀ o ∈ t.dict.opens, o.key = k → o.by_ ≠ .can m.src) ∧ ∀ n, snapOf t (.can m.src) = some n → n.key ≠ k)
      ∧ (romServes s = true →
        (∃ t, exec (.abort m) s = .next t ∧ t.out = error 4 0 :: s.out ∧ t.dict.opens = s.dict.opens ∧ t.dict.snaps = s.dict.snaps)
        ∧ ((m.payload.length < 8 ∨ payByte m.payload 3 ≠ 0) → ∃ t, exec (.read m) s = .next t ∧ t.out = error 4 (payNum m.payload 4 4) :: s.out))
      ∧ (∀ v : BitVec 4, romServes s = false → (v = 0 ∨ 8 ≤ v.toNat) →
        ∃ t, exec (.read { m with service := some v }) s = .next t ∧ t.out = error 0x0A (payNum m.payload 4 4) :: s.out))
    ∧ (powered s = true → s.dict.busOff = false → m.dst = me → m.dst ≠ 0x7F → isRequest m = true →
      (∀ q, m.waits = false → s.dict.canBuf = [] → s.dict.kept.find? (fun e => e.1 == m.src.toNat) = some (m.src.toNat, q) →
        q.tag = m.tag → q.payload = m.payload →
        ∀ i ∈ [Instr.read m, .write m, .abort m], exec i s = .next { s with out := .can q.reply.1 (padPayload q.reply.2) sw :: s.out })
      ∧ (m.waits = true → s.dict.canBuf.length < 7 →
        exec (.read m) s = .next { s with dict := { s.dict with canBuf := s.dict.canBuf ++ [{ service := 2, req := m, presence := presenceOpen s }] } }
        ∧ exec (.write m) s = .next { s with dict := { s.dict with canBuf := s.dict.canBuf ++ [{ service := 4, req := m, presence := presenceOpen s }] } })
      ∧ (m.waits = true → 7 ≤ s.dict.canBuf.length →
        ∀ i ∈ [Instr.read m, .write m, .abort m], ∃ t, exec i s = .next t ∧ t = { s with objs := t.objs } ∧ Advanced (key 0x2050 8) 1 s t
          ∧ OnlyObjects [key 0x2050 8] s t))

/-- The register window (R415): a read fills the channel's data from a snapshot, or completes with its error code; a last segment of a
plain object writes it; a first segment of more stays open; an abort ends the channel's transfers, or completes with its error where WIN_SEL is
malformed or its object absent; a WIN_CMD value outside the table, or
a register of a malformed value, completes with 0x0A; where the ROM responder serves an abort completes as busy (R393); a channel that is
busy ignores the command. WIN_STAT shows what the command left (Table 18.7). Segments at offset 0 are stated. Which values of WIN_SEL and
WIN_OFF are malformed is the model's reading (log 117), TYPE after an access of an absent object its choice (log 153). Completes: WIN_READ_SEGMENT, WIN_WRITE_SEGMENT, WIN_WRITE_LAST, WIN_ABORT. -/
def Obligations.RegisterWindow : Prop :=
  ∀ (ch : Bool) (sel off len : BitVec 32) (data : List Byte) (s : State),
    let k := selKey sel
    let free (code : Nat) (t : State) : Prop := (getWin t ch).busy = false ∧ (getWin t ch).error = code ∧ getWin t (!ch) = getWin s (!ch)
      ∧ (getWin t ch).error < 256
      ∧ (let w := winRegister t ch 0x10
         bitAt w 31 = false ∧ fld w 16 8 = code ∧ fld w 8 8 = (getWin t ch).type % 256 ∧ fld w 0 8 = (getWin t ch).valid % 256)
    (powered s = true → (getWin s ch).busy = false → NothingAhead s →
      (sel.toNat % 256 = 0 → off.toNat = 0 → data.length = 64 →
        (∀ f, readCheck (.win ch) s k = 0 → findFam s.hw k = some f → 0 < f.len →
          ∃ t, exec (.winReadSegment ch sel { off := off }) s = .next t ∧ free 0 t ∧ (getWin t ch).total = f.len
            ∧ (getWin t ch).valid = min f.len 64 ∧ (getWin t ch).type = f.ty.code ∧ t.out = s.out)
        ∧ (readCheck (.win ch) s k ≠ 0 →
          ∃ t, exec (.winReadSegment ch sel { off := off }) s = .next t ∧ free (readCheck (.win ch) s k) t ∧ (getWin t ch).valid = 0
            ∧ (getWin t ch).type = typeCode s k ∧ Advanced (key 0x2050 9) 1 s t ∧ t.out = s.out)
        ∧ (PathFree (.win ch) s → openOf s k = none → len.toNat ≤ 64 → PlainWrite k len.toNat (payNum data 0 len.toNat) s →
          ∃ t, exec (.winWriteLast ch sel off len data) s = .next t ∧ free 0 t ∧ obj t k = payNum data 0 len.toNat
            ∧ OnlyObjects [rxKey, k] s t)
        ∧ (PathFree (.win ch) s → openOf s (key 0x8000 2) = none → k = key 0x8000 2 → s.dict.opens.length < 4 → 64 < len.toNat →
          len.toNat % 256 = 0 → len.toNat ≤ 4194304 →
          ∃ t, exec (.winWriteSegment ch sel off len data) s = .next t ∧ free 0 t
            ∧ openOf t k = some { key := k, by_ := .win ch, total := len.toNat, bytes := data } ∧ OnlyObjects [rxKey] s t))
      ∧ (romServes s = false → (sel.toNat % 256 ≠ 0 ∨ objExists s.hw k = false) →
          ∃ t, exec (.winAbort ch { sel := sel, cmd := 4 }) s = .next t ∧ free (if sel.toNat % 256 ≠ 0 then 0x0A else 1) t
            ∧ t.dict.opens = s.dict.opens ∧ t.dict.snaps = s.dict.snaps)
      ∧ (romServes s = false → sel.toNat % 256 = 0 → objExists s.hw k = true →
        ∃ t, exec (.winAbort ch { sel := sel, cmd := 4 }) s = .next t ∧ free 0 t ∧ snapOf t (.win ch) = none
          ∧ (∀ o ∈ t.dict.opens, o.by_ ≠ .win ch) ∧ OnlyObjects [rxKey] s t)
      ∧ (romServes s = true → ∃ t, exec (.winAbort ch { sel := sel, cmd := 4 }) s = .next t ∧ free 4 t ∧ t.dict.opens = s.dict.opens)
      ∧ (∀ cmd : BitVec 32, romServes s = false → cmd ≠ 1 → cmd ≠ 2 → cmd ≠ 3 → cmd ≠ 4 →
          ∃ t, exec (.winAbort ch { sel := sel, cmd := cmd }) s = .next t ∧ free 0x0A t ∧ Advanced (key 0x2050 9) 1 s t)
      ∧ (winMalformed sel off = true → romServes s = false →
          ∀ i ∈ [Instr.winReadSegment ch sel { off := off }, .winWriteSegment ch sel off len data, .winWriteLast ch sel off len data],
            ∃ t, exec i s = .next t ∧ free 0x0A t ∧ Advanced (key 0x2050 9) 1 s t))
    ∧ ((getWin s ch).busy = true →
      ∀ i ∈ [Instr.winReadSegment ch sel { off := off }, .winWriteSegment ch sel off len data, .winWriteLast ch sel off len data,
             .winAbort ch { sel := sel, cmd := 4 }], exec i s = .next s)

/-- NOTE_PEND, the NOTIFY windows, the expiries and bus-off (R409, R411 to R413): a read returns NOTE_PEND and clears it, on either path;
a window that ends with nothing held only closes; an expiry removes the snapshot, the open write or the kept reply; bus-off counts, and
recovery ends it. Completes: NOTE_PEND_READ, NOTIFY_HOLDOFF_END, SNAPSHOT_EXPIRY, OPEN_WRITE_EXPIRY, REPLY_RETENTION_EXPIRY, BUS_OFF,
BUS_OFF_RECOVERY. -/
def Obligations.PortHousekeeping : Prop :=
  ∀ s : State,
    (∀ c, powered s = true →
      ∃ t, exec (.notePendRead (.win c)) s = .next t
        ∧ t = { s with objs := t.objs, out := .noteRead c (obj s (key 0x2050 5)) :: s.out } ∧ OnlyObjects [key 0x2050 5] s t
        ∧ obj t (key 0x2050 5) = 0)
    ∧ (∀ n : BitVec 7, powered s = true → romServes s = false → s.dict.busOff = false → NothingAhead s →
      ∃ t, exec (.notePendRead (.can n)) s = .next t ∧ t = { s with objs := t.objs, dict := t.dict }
        ∧ OnlyObjects [rxKey, key 0x2050 5] s t ∧ obj t (key 0x2050 5) = 0
        ∧ snapOf t (.can n) = some { key := key 0x2050 5, bytes := toBytes 2 (obj s (key 0x2050 5)) })
    ∧ (∀ code : BitVec 4, powered s = true → (tget .idle s.dict.notes code.toNat).running = true →
      (tget .idle s.dict.notes code.toNat).held = false →
      ∃ t, exec (.notifyHoldoffEnd code) s = .next t ∧ t = { s with dict := { s.dict with notes := t.dict.notes } }
        ∧ (tget .idle t.dict.notes code.toNat).running = false
        ∧ ∀ j, j ≠ code.toNat → tget .idle t.dict.notes j = tget .idle s.dict.notes j)
    ∧ (∀ r, ∃ t, exec (.snapshotExpiry r) s = .next t ∧ snapOf t r = none ∧ (∀ r', r' ≠ r → snapOf t r' = snapOf s r')
        ∧ t = { s with dict := { s.dict with snaps := t.dict.snaps } })
    ∧ (∀ k : BitVec 24, ∃ t, exec (.openWriteExpiry k) s = .next t ∧ openOf t k.toNat = none
        ∧ (∀ j, j ≠ k.toNat → openOf t j = openOf s j) ∧ t = { s with dict := { s.dict with opens := t.dict.opens } })
    ∧ (∀ n : BitVec 7, ∃ t, exec (.replyRetentionExpiry n) s = .next t ∧ t = { s with dict := { s.dict with kept := t.dict.kept } }
        ∧ t.dict.kept.find? (fun e => e.1 == n.toNat) = none)
    ∧ (powered s = true → s.dict.busOff = false → s.twin.silent = false →
      ∃ t, exec .busOff s = .next t ∧ t = { s with objs := t.objs, dict := { s.dict with busOff := true } }
        ∧ OnlyObjects [key 0x2050 10] s t ∧ Advanced (key 0x2050 10) 1 s t)
    ∧ (powered s = true → s.dict.busOff = true → (∀ j, (tget .idle s.dict.notes j).held = false) →
      exec .busOffRecovery s = .next { s with dict := { s.dict with busOff := false } })

/-! ## Pins and time -/

/-- Presence (R416, Table 18.8): a low level starts qualifying from armed; a level that stayed low opens a window of 120 s, counted; at its end
the machine holds until the pin has been high. Both events raise the presence notification; beside it nothing else changes.
Completes: PRESENCE_PIN_CHANGE, PRESENCE_QUALIFIED, PRESENCE_WINDOW_END, PRESENCE_REARM. -/
def Obligations.PresenceMachine : Prop :=
  ∀ s : State, powered s = true →
    (s.pres.st = .armed →
      exec (.presencePinChange true) s = .next { s with pres := { s.pres with low := true, st := .qualifying } })
    ∧ (s.pres.st = .qualifying → s.pres.windowOpen = false →
      exec (.presencePinChange false) s = .next { s with pres := { s.pres with low := false, st := .armed, rearmed := false } })
    ∧ (s.pres.st = .qualifying → s.pres.low = true →
      ∃ t, exec .presenceQualified s = .next t
        ∧ t.pres = { s.pres with st := .opened, rearmed := false, windowOpen := true, windowEnd := s.clock.time + 120000000000 }
        ∧ t = { s with pres := t.pres, objs := t.objs, dict := t.dict, out := t.out }
        ∧ OnlyObjects [key 0x1200 3, key 0x2050 5, key 0x2050 6] s t
        ∧ presenceOpen t = true ∧ Advanced (key 0x1200 3) 1 s t ∧ bitAt (obj t (key 0x2050 5)) 8 = true)
    ∧ (s.pres.windowOpen = true → s.pres.st = .opened → s.pres.low = true →
      ∃ t, exec .presenceWindowEnd s = .next t ∧ t.pres = { s.pres with windowOpen := false, st := .held, rearmed := false }
        ∧ t = { s with pres := t.pres, objs := t.objs, dict := t.dict, out := t.out } ∧ OnlyObjects [key 0x2050 5, key 0x2050 6] s t
        ∧ presenceOpen t = false ∧ bitAt (obj t (key 0x2050 5)) 8 = true)
    ∧ (s.pres.low = false → s.pres.st = .held → exec .presenceRearm s = .next { s with pres := { s.pres with st := .armed } })

/-- Time and thermal pins (R444, R445, R342): a load frame of good parity waits for its edge, a bad one is a corrected fault against the
time base, and bits without a frame's start bit are no frame and change nothing (log 4); at the edge, with no plan, the value stands and
counts; while a plan exists it is applied as a correction if it is within 2,000 ns, forward by a jump and backward by a hold, and discarded
with a corrected fault of timing if not; one whose frame completed in the REF_CLK cycle of the edge waits for the next one (R446); an edge
with nothing loaded corrects to the nearest multiple of 1 ms within the same limit; a stack's state rises with its pins at once, does not fall
as a pin rises, and falls only at its release, which notes when it became normal again.
Completes: TIME_LOAD_FRAME, TIME_SYNC, THERM_PIN_CHANGE, THERM_RELEASE. -/
def Obligations.TimeAndThermal : Prop :=
  ∀ s : State, powered s = true →
    let late (t : State) : Prop := ∃ x : Report, t.faults = { s.faults with reports := s.faults.reports ++ [x] } ∧ x.d.source = 0x90A
      ∧ x.d.cls = .corrected ∧ x.d.access = 8
    (∀ b : BitVec 67, bitAt b.toNat 0 = true → exec (.timeLoadFrame b) s = .next s)
    ∧ (∀ b : BitVec 67, bitAt b.toNat 0 = false →
      let good := popcount 65 (fld b.toNat 1 65) % 2 == 0 && bitAt b.toNat 66
      (good = true → exec (.timeLoadFrame b) s = .next { s with clock := { s.clock with loaded := some (fld b.toNat 1 64), fresh := true } })
      ∧ (good = false →
        ∃ t, exec (.timeLoadFrame b) s = .next t ∧ t.clock = s.clock
          ∧ ∃ x : Report, t.faults = { s.faults with reports := s.faults.reports ++ [x] } ∧ x.d.source = 0x90A ∧ x.d.cls = .corrected
            ∧ x.d.access = 0))
    ∧ (∀ l, s.clock.loaded = some l → s.clock.fresh = false → planExists s = false →
      ∃ t, exec .timeSync s = .next t ∧ t.clock = { s.clock with time := l % 2 ^ 64, hold := 0, loaded := none }
        ∧ Advanced (key 0x2060 2) 1 s t ∧ t.twin.skipWindow = true)
    ∧ (∀ l, s.clock.loaded = some l → s.clock.fresh = false → planExists s = true →
      let v := s.clock.time
      let near : Prop := l ≤ v + 2000 ∧ v ≤ l + 2000
      (near →
        ∃ t, exec .timeSync s = .next t ∧ t = { s with clock := t.clock, objs := t.objs, pres := t.pres } ∧ OnlyObjects [key 0x2060 2] s t
          ∧ Advanced (key 0x2060 2) 1 s t ∧ (v ≤ l → t.clock = { s.clock with time := l % 2 ^ 64, hold := 0, loaded := none })
          ∧ (l < v → t.clock = { s.clock with hold := (v - l + 9) / 10, loaded := none }))
      ∧ (¬ near → ∃ t, exec .timeSync s = .next t ∧ t.clock = { s.clock with loaded := none } ∧ OnlyObjects [] s t ∧ late t))
    ∧ ((s.clock.loaded = none ∨ s.clock.fresh = true) →
      let m := (s.clock.time + 500000) / 1000000 * 1000000
      (¬ (s.clock.time ≤ m + 2000 ∧ m ≤ s.clock.time + 2000) →
        ∃ t, exec .timeSync s = .next t ∧ t.clock = s.clock ∧ OnlyObjects [] s t ∧ late t)
      ∧ (m ≤ s.clock.time + 2000 → s.clock.time ≤ m →
        ∃ t, exec .timeSync s = .next t ∧ t.clock = { s.clock with time := m % 2 ^ 64, hold := 0 } ∧ Advanced (key 0x2060 3) 1 s t)
      ∧ (s.clock.time ≤ m + 2000 → m < s.clock.time →
        ∃ t, exec .timeSync s = .next t ∧ t.clock = { s.clock with hold := (s.clock.time - m + 9) / 10 } ∧ Advanced (key 0x2060 3) 1 s t))
    ∧ ((s.clock.loaded = none ∨ s.clock.fresh = true) → s.clock.time % 1000000 = 0 → s.clock.time < 2 ^ 64 →
      ∃ t, exec .timeSync s = .next t ∧ t.clock = { s.clock with hold := 0 } ∧ Advanced (key 0x2060 3) 1 s t)
    ∧ (∀ (k : BitVec 2) (crit : Bool), k.toNat < nStacks s.hw →
      let a := getStack s k.toNat
      ∃ t, exec (.thermPinChange k crit true) s = .next t ∧ t = { s with stackTab := t.stackTab, seqs := t.seqs }
        ∧ getStack t k.toNat = { a with critLow := a.critLow || crit, warnLow := a.warnLow || !crit,
                                        state := max a.state (if a.critLow || crit then 2 else 1) })
    ∧ (∀ (k : BitVec 2) (crit : Bool), k.toNat < nStacks s.hw →
      let a := getStack s k.toNat
      ∃ t, exec (.thermPinChange k crit false) s = .next t ∧ t = { s with stackTab := t.stackTab, seqs := t.seqs }
        ∧ getStack t k.toNat = { a with critLow := a.critLow && !crit, warnLow := a.warnLow && crit,
                                        state := max a.state (if a.critLow && !crit then 2 else if a.warnLow && crit then 1 else 0) })
    ∧ (∀ k : BitVec 2, k.toNat < nStacks s.hw →
      let a := getStack s k.toNat
      let now := min a.state (if a.critLow then 2 else if a.warnLow then 1 else 0)
      ∃ t, exec (.thermRelease k) s = .next t ∧ t = { s with stackTab := t.stackTab }
        ∧ getStack t k.toNat = { a with state := now, cooled := if a.state != 0 && now == 0 then some s.clock.tick else a.cooled })
end

