-- ==== Sys2Proof/Laws/Tab.lean ====
section
/-! SUPPORT. The sparse tables: a read after a write, reads of other keys, and the canonical form that every table operation keeps. -/

namespace Sys2Proof.Machine

variable {α : Type}

theorem tget_tdel_same (d : α) (t : Tab α) (k : Nat) : tget d (tdel t k) k = d := by
  induction t with
  | nil => rfl
  | cons e r ih =>
    obtain ⟨k', v⟩ := e
    by_cases h : k = k' <;> simp [tdel, tget, h, ih]
    simpa [h] using ih

theorem tget_tdel_other (d : α) (t : Tab α) (k j : Nat) (h : j ≠ k) : tget d (tdel t k) j = tget d t j := by
  induction t with
  | nil => rfl
  | cons e r ih =>
    obtain ⟨k', v⟩ := e
    by_cases hk : k = k'
    · subst hk; simp [tdel, tget, h, ih]
    · by_cases hj : j = k' <;> simp [tdel, tget, hk, hj, ih]

theorem tget_tins_same (d : α) (t : Tab α) (k : Nat) (v : α) : tget d (tins t k v) k = v := by
  induction t with
  | nil => simp [tins, tget]
  | cons e r ih =>
    obtain ⟨k', v'⟩ := e
    simp only [tins]
    split
    · simp [tget]
    · split
      · simp [tget]
      · next h => simp [tget, h, ih]

theorem tget_tins_other (d : α) (t : Tab α) (k j : Nat) (v : α) (h : j ≠ k) : tget d (tins t k v) j = tget d t j := by
  induction t with
  | nil => simp [tins, tget, h]
  | cons e r ih =>
    obtain ⟨k', v'⟩ := e
    simp only [tins]
    split
    · simp [tget, h]
    · split
      · next hk => subst hk; simp [tget, h]
      · simp [tget, ih]

variable [DecidableEq α]

@[simp] theorem tget_tset_same (d : α) (t : Tab α) (k : Nat) (v : α) : tget d (tset d t k v) k = v := by
  unfold tset
  split
  · next h => rw [tget_tdel_same, h]
  · exact tget_tins_same d t k v

theorem tget_tset_other (d : α) (t : Tab α) (k j : Nat) (v : α) (h : j ≠ k) : tget d (tset d t k v) j = tget d t j := by
  unfold tset
  split
  · exact tget_tdel_other d t k j h
  · exact tget_tins_other d t k j v h

theorem tget_tset (d : α) (t : Tab α) (k j : Nat) (v : α) : tget d (tset d t k v) j = if j = k then v else tget d t j := by
  split
  · next h => subst h; simp
  · next h => exact tget_tset_other d t k j v h

/-! ## The canonical form -/

omit [DecidableEq α] in
theorem risingFrom_weaken {lo lo' : Option Nat} {t : Tab α} (h : risingFrom lo t = true)
    (hlo : ∀ b, lo' = some b → ∃ a, lo = some a ∧ b ≤ a) : risingFrom lo' t = true := by
  cases t with
  | nil => rfl
  | cons e r =>
    obtain ⟨k, v⟩ := e
    simp only [risingFrom, Bool.and_eq_true] at h ⊢
    refine ⟨?_, h.2⟩
    cases lo' with
    | none => rfl
    | some b =>
      obtain ⟨a, ha, hb⟩ := hlo b rfl
      subst ha
      simp only [decide_eq_true_eq] at h ⊢
      omega

omit [DecidableEq α] in
theorem risingFrom_tdel {lo : Option Nat} {t : Tab α} (k : Nat) (h : risingFrom lo t = true) : risingFrom lo (tdel t k) = true := by
  induction t generalizing lo with
  | nil => rfl
  | cons e r ih =>
    obtain ⟨k', v⟩ := e
    simp only [risingFrom, Bool.and_eq_true] at h
    simp only [tdel]
    split
    · refine ih (risingFrom_weaken h.2 ?_)
      intro b hb
      subst hb
      exact ⟨k', rfl, by simpa using Nat.le_of_lt (by simpa using h.1)⟩
    · simp only [risingFrom, Bool.and_eq_true]
      exact ⟨h.1, ih h.2⟩

omit [DecidableEq α] in
theorem risingFrom_tins {lo : Option Nat} {t : Tab α} (k : Nat) (v : α) (h : risingFrom lo t = true)
    (hk : ∀ b, lo = some b → b < k) : risingFrom lo (tins t k v) = true := by
  induction t generalizing lo with
  | nil => cases lo <;> simp_all [tins, risingFrom]
  | cons e r ih =>
    obtain ⟨k', v'⟩ := e
    simp only [risingFrom, Bool.and_eq_true] at h
    simp only [tins]
    split
    · cases lo <;> simp_all [risingFrom]
    · split
      · next hk' => subst hk'; simp only [risingFrom, Bool.and_eq_true]; exact h
      · simp only [risingFrom, Bool.and_eq_true]
        refine ⟨h.1, ih h.2 ?_⟩
        intro b hb
        cases hb
        omega

omit [DecidableEq α] in
theorem mem_tdel {t : Tab α} {k : Nat} {e : Nat × α} (h : e ∈ tdel t k) : e ∈ t := by
  induction t with
  | nil => simp [tdel] at h
  | cons x r ih =>
    obtain ⟨k', v⟩ := x
    simp only [tdel] at h
    split at h
    · exact List.mem_cons_of_mem _ (ih h)
    · rcases List.mem_cons.1 h with h | h
      · exact h ▸ List.mem_cons_self
      · exact List.mem_cons_of_mem _ (ih h)

omit [DecidableEq α] in
theorem mem_tins {t : Tab α} {k : Nat} {v : α} {e : Nat × α} (h : e ∈ tins t k v) : e = (k, v) ∨ e ∈ t := by
  induction t with
  | nil => simpa [tins] using h
  | cons x r ih =>
    obtain ⟨k', v'⟩ := x
    simp only [tins] at h
    split at h
    · simpa using h
    · split at h
      · rcases List.mem_cons.1 h with h | h
        · exact .inl h
        · exact .inr (List.mem_cons_of_mem _ h)
      · rcases List.mem_cons.1 h with h | h
        · exact .inr (h ▸ List.mem_cons_self)
        · rcases ih h with h | h
          · exact .inl h
          · exact .inr (List.mem_cons_of_mem _ h)

/-- Every write keeps the canonical form. -/
theorem Tab.wf_tset (d : α) (t : Tab α) (k : Nat) (v : α) (h : Tab.wf d t = true) : Tab.wf d (tset d t k v) = true := by
  simp only [Tab.wf, Bool.and_eq_true, List.all_eq_true] at h ⊢
  unfold tset
  split
  · exact ⟨risingFrom_tdel k h.1, fun e he => h.2 e (mem_tdel he)⟩
  · next hv =>
    refine ⟨risingFrom_tins k v h.1 (by simp), fun e he => ?_⟩
    rcases mem_tins he with he | he
    · subst he; simpa using hv
    · exact h.2 e he

theorem risingFrom_tset (d : α) (t : Tab α) (k : Nat) (v : α) (h : risingFrom none t = true) :
    risingFrom none (tset d t k v) = true := by
  unfold tset
  split
  · exact risingFrom_tdel k h
  · exact risingFrom_tins k v h (by simp)

theorem risingFrom_tmap {lo : Option Nat} (d : α) (f : α → α) {t : Tab α} (h : risingFrom lo t = true) :
    risingFrom lo (tmap d f t) = true := by
  induction t generalizing lo with
  | nil => rfl
  | cons e r ih =>
    obtain ⟨k, v⟩ := e
    simp only [risingFrom, Bool.and_eq_true] at h
    simp only [tmap]
    split
    · refine ih (risingFrom_weaken h.2 ?_)
      intro b hb
      subst hb
      exact ⟨k, rfl, by simpa using Nat.le_of_lt (by simpa using h.1)⟩
    · simp only [risingFrom, Bool.and_eq_true]
      exact ⟨h.1, ih h.2⟩

/-- A change of every value keeps the canonical form. -/
theorem Tab.wf_tmap (d : α) (f : α → α) (t : Tab α) (h : Tab.wf d t = true) : Tab.wf d (tmap d f t) = true := by
  simp only [Tab.wf, Bool.and_eq_true] at h ⊢
  refine ⟨risingFrom_tmap d f h.1, ?_⟩
  clear h
  induction t with
  | nil => rfl
  | cons e r ih =>
    obtain ⟨k, v⟩ := e
    simp only [tmap]
    split
    · exact ih
    · next hv => simp only [List.all_cons, Bool.and_eq_true]; exact ⟨by simpa using hv, ih⟩

end Sys2Proof.Machine
end

