-- ==== Sys2Proof/Laws/State.lean ====
section
/-! SUPPORT. The State's small laws: what each named update leaves as it was, one lemma per field, and the reads after each write. -/

namespace Sys2Proof.Machine

@[simp] theorem setObj_hw (k v : Nat) (s : State) : (setObj k v s).hw = s.hw := rfl
@[simp] theorem setObj_clock (k v : Nat) (s : State) : (setObj k v s).clock = s.clock := rfl
@[simp] theorem setObj_boot (k v : Nat) (s : State) : (setObj k v s).boot = s.boot := rfl
@[simp] theorem setObj_dict (k v : Nat) (s : State) : (setObj k v s).dict = s.dict := rfl
@[simp] theorem setObj_pres (k v : Nat) (s : State) : (setObj k v s).pres = s.pres := rfl
@[simp] theorem setObj_faults (k v : Nat) (s : State) : (setObj k v s).faults = s.faults := rfl
@[simp] theorem setObj_hist (k v : Nat) (s : State) : (setObj k v s).hist = s.hist := rfl
@[simp] theorem setObj_tests (k v : Nat) (s : State) : (setObj k v s).tests = s.tests := rfl
@[simp] theorem setObj_plan (k v : Nat) (s : State) : (setObj k v s).plan = s.plan := rfl
@[simp] theorem setObj_seqs (k v : Nat) (s : State) : (setObj k v s).seqs = s.seqs := rfl
@[simp] theorem setObj_clusters (k v : Nat) (s : State) : (setObj k v s).clusters = s.clusters := rfl
@[simp] theorem setObj_ports (k v : Nat) (s : State) : (setObj k v s).ports = s.ports := rfl
@[simp] theorem setObj_eaHold (k v : Nat) (s : State) : (setObj k v s).eaHold = s.eaHold := rfl
@[simp] theorem setObj_ord0 (k v : Nat) (s : State) : (setObj k v s).ord0 = s.ord0 := rfl
@[simp] theorem setObj_ord1 (k v : Nat) (s : State) : (setObj k v s).ord1 = s.ord1 := rfl
@[simp] theorem setObj_queues (k v : Nat) (s : State) : (setObj k v s).queues = s.queues := rfl
@[simp] theorem setObj_fcHigh (k v : Nat) (s : State) : (setObj k v s).fcHigh = s.fcHigh := rfl
@[simp] theorem setObj_fcLow (k v : Nat) (s : State) : (setObj k v s).fcLow = s.fcLow := rfl
@[simp] theorem setObj_islands (k v : Nat) (s : State) : (setObj k v s).islands = s.islands := rfl
@[simp] theorem setObj_stackTab (k v : Nat) (s : State) : (setObj k v s).stackTab = s.stackTab := rfl
@[simp] theorem setObj_twin (k v : Nat) (s : State) : (setObj k v s).twin = s.twin := rfl
@[simp] theorem setObj_out (k v : Nat) (s : State) : (setObj k v s).out = s.out := rfl
@[simp] theorem setObj_freeIdx (k v : Nat) (s : State) : (setObj k v s).freeIdx = s.freeIdx := rfl
@[simp] theorem setObj_pending (k v : Nat) (s : State) : (setObj k v s).pending = s.pending := rfl

@[simp] theorem setSeq_hw (q : Nat) (v : Seq) (s : State) : (setSeq q v s).hw = s.hw := rfl
@[simp] theorem setSeq_objs (q : Nat) (v : Seq) (s : State) : (setSeq q v s).objs = s.objs := rfl
@[simp] theorem setSeq_clock (q : Nat) (v : Seq) (s : State) : (setSeq q v s).clock = s.clock := rfl
@[simp] theorem setSeq_boot (q : Nat) (v : Seq) (s : State) : (setSeq q v s).boot = s.boot := rfl
@[simp] theorem setSeq_dict (q : Nat) (v : Seq) (s : State) : (setSeq q v s).dict = s.dict := rfl
@[simp] theorem setSeq_pres (q : Nat) (v : Seq) (s : State) : (setSeq q v s).pres = s.pres := rfl
@[simp] theorem setSeq_faults (q : Nat) (v : Seq) (s : State) : (setSeq q v s).faults = s.faults := rfl
@[simp] theorem setSeq_hist (q : Nat) (v : Seq) (s : State) : (setSeq q v s).hist = s.hist := rfl
@[simp] theorem setSeq_tests (q : Nat) (v : Seq) (s : State) : (setSeq q v s).tests = s.tests := rfl
@[simp] theorem setSeq_plan (q : Nat) (v : Seq) (s : State) : (setSeq q v s).plan = s.plan := rfl
@[simp] theorem setSeq_clusters (q : Nat) (v : Seq) (s : State) : (setSeq q v s).clusters = s.clusters := rfl
@[simp] theorem setSeq_ports (q : Nat) (v : Seq) (s : State) : (setSeq q v s).ports = s.ports := rfl
@[simp] theorem setSeq_eaHold (q : Nat) (v : Seq) (s : State) : (setSeq q v s).eaHold = s.eaHold := rfl
@[simp] theorem setSeq_ord0 (q : Nat) (v : Seq) (s : State) : (setSeq q v s).ord0 = s.ord0 := rfl
@[simp] theorem setSeq_ord1 (q : Nat) (v : Seq) (s : State) : (setSeq q v s).ord1 = s.ord1 := rfl
@[simp] theorem setSeq_queues (q : Nat) (v : Seq) (s : State) : (setSeq q v s).queues = s.queues := rfl
@[simp] theorem setSeq_fcHigh (q : Nat) (v : Seq) (s : State) : (setSeq q v s).fcHigh = s.fcHigh := rfl
@[simp] theorem setSeq_fcLow (q : Nat) (v : Seq) (s : State) : (setSeq q v s).fcLow = s.fcLow := rfl
@[simp] theorem setSeq_islands (q : Nat) (v : Seq) (s : State) : (setSeq q v s).islands = s.islands := rfl
@[simp] theorem setSeq_stackTab (q : Nat) (v : Seq) (s : State) : (setSeq q v s).stackTab = s.stackTab := rfl
@[simp] theorem setSeq_twin (q : Nat) (v : Seq) (s : State) : (setSeq q v s).twin = s.twin := rfl
@[simp] theorem setSeq_out (q : Nat) (v : Seq) (s : State) : (setSeq q v s).out = s.out := rfl
@[simp] theorem setSeq_freeIdx (q : Nat) (v : Seq) (s : State) : (setSeq q v s).freeIdx = s.freeIdx := rfl
@[simp] theorem setSeq_pending (q : Nat) (v : Seq) (s : State) : (setSeq q v s).pending = s.pending := rfl

@[simp] theorem modSeq_hw (q : Nat) (f : Seq → Seq) (s : State) : (modSeq q f s).hw = s.hw := rfl
@[simp] theorem modSeq_objs (q : Nat) (f : Seq → Seq) (s : State) : (modSeq q f s).objs = s.objs := rfl
@[simp] theorem modSeq_clock (q : Nat) (f : Seq → Seq) (s : State) : (modSeq q f s).clock = s.clock := rfl
@[simp] theorem modSeq_boot (q : Nat) (f : Seq → Seq) (s : State) : (modSeq q f s).boot = s.boot := rfl
@[simp] theorem modSeq_dict (q : Nat) (f : Seq → Seq) (s : State) : (modSeq q f s).dict = s.dict := rfl
@[simp] theorem modSeq_pres (q : Nat) (f : Seq → Seq) (s : State) : (modSeq q f s).pres = s.pres := rfl
@[simp] theorem modSeq_faults (q : Nat) (f : Seq → Seq) (s : State) : (modSeq q f s).faults = s.faults := rfl
@[simp] theorem modSeq_hist (q : Nat) (f : Seq → Seq) (s : State) : (modSeq q f s).hist = s.hist := rfl
@[simp] theorem modSeq_tests (q : Nat) (f : Seq → Seq) (s : State) : (modSeq q f s).tests = s.tests := rfl
@[simp] theorem modSeq_plan (q : Nat) (f : Seq → Seq) (s : State) : (modSeq q f s).plan = s.plan := rfl
@[simp] theorem modSeq_clusters (q : Nat) (f : Seq → Seq) (s : State) : (modSeq q f s).clusters = s.clusters := rfl
@[simp] theorem modSeq_ports (q : Nat) (f : Seq → Seq) (s : State) : (modSeq q f s).ports = s.ports := rfl
@[simp] theorem modSeq_eaHold (q : Nat) (f : Seq → Seq) (s : State) : (modSeq q f s).eaHold = s.eaHold := rfl
@[simp] theorem modSeq_ord0 (q : Nat) (f : Seq → Seq) (s : State) : (modSeq q f s).ord0 = s.ord0 := rfl
@[simp] theorem modSeq_ord1 (q : Nat) (f : Seq → Seq) (s : State) : (modSeq q f s).ord1 = s.ord1 := rfl
@[simp] theorem modSeq_queues (q : Nat) (f : Seq → Seq) (s : State) : (modSeq q f s).queues = s.queues := rfl
@[simp] theorem modSeq_fcHigh (q : Nat) (f : Seq → Seq) (s : State) : (modSeq q f s).fcHigh = s.fcHigh := rfl
@[simp] theorem modSeq_fcLow (q : Nat) (f : Seq → Seq) (s : State) : (modSeq q f s).fcLow = s.fcLow := rfl
@[simp] theorem modSeq_islands (q : Nat) (f : Seq → Seq) (s : State) : (modSeq q f s).islands = s.islands := rfl
@[simp] theorem modSeq_stackTab (q : Nat) (f : Seq → Seq) (s : State) : (modSeq q f s).stackTab = s.stackTab := rfl
@[simp] theorem modSeq_twin (q : Nat) (f : Seq → Seq) (s : State) : (modSeq q f s).twin = s.twin := rfl
@[simp] theorem modSeq_out (q : Nat) (f : Seq → Seq) (s : State) : (modSeq q f s).out = s.out := rfl
@[simp] theorem modSeq_freeIdx (q : Nat) (f : Seq → Seq) (s : State) : (modSeq q f s).freeIdx = s.freeIdx := rfl
@[simp] theorem modSeq_pending (q : Nat) (f : Seq → Seq) (s : State) : (modSeq q f s).pending = s.pending := rfl

@[simp] theorem setCl_hw (c : Nat) (v : Cluster) (s : State) : (setCl c v s).hw = s.hw := rfl
@[simp] theorem setCl_objs (c : Nat) (v : Cluster) (s : State) : (setCl c v s).objs = s.objs := rfl
@[simp] theorem setCl_clock (c : Nat) (v : Cluster) (s : State) : (setCl c v s).clock = s.clock := rfl
@[simp] theorem setCl_boot (c : Nat) (v : Cluster) (s : State) : (setCl c v s).boot = s.boot := rfl
@[simp] theorem setCl_dict (c : Nat) (v : Cluster) (s : State) : (setCl c v s).dict = s.dict := rfl
@[simp] theorem setCl_pres (c : Nat) (v : Cluster) (s : State) : (setCl c v s).pres = s.pres := rfl
@[simp] theorem setCl_faults (c : Nat) (v : Cluster) (s : State) : (setCl c v s).faults = s.faults := rfl
@[simp] theorem setCl_hist (c : Nat) (v : Cluster) (s : State) : (setCl c v s).hist = s.hist := rfl
@[simp] theorem setCl_tests (c : Nat) (v : Cluster) (s : State) : (setCl c v s).tests = s.tests := rfl
@[simp] theorem setCl_plan (c : Nat) (v : Cluster) (s : State) : (setCl c v s).plan = s.plan := rfl
@[simp] theorem setCl_seqs (c : Nat) (v : Cluster) (s : State) : (setCl c v s).seqs = s.seqs := rfl
@[simp] theorem setCl_ports (c : Nat) (v : Cluster) (s : State) : (setCl c v s).ports = s.ports := rfl
@[simp] theorem setCl_eaHold (c : Nat) (v : Cluster) (s : State) : (setCl c v s).eaHold = s.eaHold := rfl
@[simp] theorem setCl_ord0 (c : Nat) (v : Cluster) (s : State) : (setCl c v s).ord0 = s.ord0 := rfl
@[simp] theorem setCl_ord1 (c : Nat) (v : Cluster) (s : State) : (setCl c v s).ord1 = s.ord1 := rfl
@[simp] theorem setCl_queues (c : Nat) (v : Cluster) (s : State) : (setCl c v s).queues = s.queues := rfl
@[simp] theorem setCl_fcHigh (c : Nat) (v : Cluster) (s : State) : (setCl c v s).fcHigh = s.fcHigh := rfl
@[simp] theorem setCl_fcLow (c : Nat) (v : Cluster) (s : State) : (setCl c v s).fcLow = s.fcLow := rfl
@[simp] theorem setCl_islands (c : Nat) (v : Cluster) (s : State) : (setCl c v s).islands = s.islands := rfl
@[simp] theorem setCl_stackTab (c : Nat) (v : Cluster) (s : State) : (setCl c v s).stackTab = s.stackTab := rfl
@[simp] theorem setCl_twin (c : Nat) (v : Cluster) (s : State) : (setCl c v s).twin = s.twin := rfl
@[simp] theorem setCl_out (c : Nat) (v : Cluster) (s : State) : (setCl c v s).out = s.out := rfl
@[simp] theorem setCl_freeIdx (c : Nat) (v : Cluster) (s : State) : (setCl c v s).freeIdx = s.freeIdx := rfl
@[simp] theorem setCl_pending (c : Nat) (v : Cluster) (s : State) : (setCl c v s).pending = s.pending := rfl

@[simp] theorem modCl_hw (c : Nat) (f : Cluster → Cluster) (s : State) : (modCl c f s).hw = s.hw := rfl
@[simp] theorem modCl_objs (c : Nat) (f : Cluster → Cluster) (s : State) : (modCl c f s).objs = s.objs := rfl
@[simp] theorem modCl_clock (c : Nat) (f : Cluster → Cluster) (s : State) : (modCl c f s).clock = s.clock := rfl
@[simp] theorem modCl_boot (c : Nat) (f : Cluster → Cluster) (s : State) : (modCl c f s).boot = s.boot := rfl
@[simp] theorem modCl_dict (c : Nat) (f : Cluster → Cluster) (s : State) : (modCl c f s).dict = s.dict := rfl
@[simp] theorem modCl_pres (c : Nat) (f : Cluster → Cluster) (s : State) : (modCl c f s).pres = s.pres := rfl
@[simp] theorem modCl_faults (c : Nat) (f : Cluster → Cluster) (s : State) : (modCl c f s).faults = s.faults := rfl
@[simp] theorem modCl_hist (c : Nat) (f : Cluster → Cluster) (s : State) : (modCl c f s).hist = s.hist := rfl
@[simp] theorem modCl_tests (c : Nat) (f : Cluster → Cluster) (s : State) : (modCl c f s).tests = s.tests := rfl
@[simp] theorem modCl_plan (c : Nat) (f : Cluster → Cluster) (s : State) : (modCl c f s).plan = s.plan := rfl
@[simp] theorem modCl_seqs (c : Nat) (f : Cluster → Cluster) (s : State) : (modCl c f s).seqs = s.seqs := rfl
@[simp] theorem modCl_ports (c : Nat) (f : Cluster → Cluster) (s : State) : (modCl c f s).ports = s.ports := rfl
@[simp] theorem modCl_eaHold (c : Nat) (f : Cluster → Cluster) (s : State) : (modCl c f s).eaHold = s.eaHold := rfl
@[simp] theorem modCl_ord0 (c : Nat) (f : Cluster → Cluster) (s : State) : (modCl c f s).ord0 = s.ord0 := rfl
@[simp] theorem modCl_ord1 (c : Nat) (f : Cluster → Cluster) (s : State) : (modCl c f s).ord1 = s.ord1 := rfl
@[simp] theorem modCl_queues (c : Nat) (f : Cluster → Cluster) (s : State) : (modCl c f s).queues = s.queues := rfl
@[simp] theorem modCl_fcHigh (c : Nat) (f : Cluster → Cluster) (s : State) : (modCl c f s).fcHigh = s.fcHigh := rfl
@[simp] theorem modCl_fcLow (c : Nat) (f : Cluster → Cluster) (s : State) : (modCl c f s).fcLow = s.fcLow := rfl
@[simp] theorem modCl_islands (c : Nat) (f : Cluster → Cluster) (s : State) : (modCl c f s).islands = s.islands := rfl
@[simp] theorem modCl_stackTab (c : Nat) (f : Cluster → Cluster) (s : State) : (modCl c f s).stackTab = s.stackTab := rfl
@[simp] theorem modCl_twin (c : Nat) (f : Cluster → Cluster) (s : State) : (modCl c f s).twin = s.twin := rfl
@[simp] theorem modCl_out (c : Nat) (f : Cluster → Cluster) (s : State) : (modCl c f s).out = s.out := rfl
@[simp] theorem modCl_freeIdx (c : Nat) (f : Cluster → Cluster) (s : State) : (modCl c f s).freeIdx = s.freeIdx := rfl
@[simp] theorem modCl_pending (c : Nat) (f : Cluster → Cluster) (s : State) : (modCl c f s).pending = s.pending := rfl

@[simp] theorem setPort_hw (p : Nat) (v : Port) (s : State) : (setPort p v s).hw = s.hw := rfl
@[simp] theorem setPort_objs (p : Nat) (v : Port) (s : State) : (setPort p v s).objs = s.objs := rfl
@[simp] theorem setPort_clock (p : Nat) (v : Port) (s : State) : (setPort p v s).clock = s.clock := rfl
@[simp] theorem setPort_boot (p : Nat) (v : Port) (s : State) : (setPort p v s).boot = s.boot := rfl
@[simp] theorem setPort_dict (p : Nat) (v : Port) (s : State) : (setPort p v s).dict = s.dict := rfl
@[simp] theorem setPort_pres (p : Nat) (v : Port) (s : State) : (setPort p v s).pres = s.pres := rfl
@[simp] theorem setPort_faults (p : Nat) (v : Port) (s : State) : (setPort p v s).faults = s.faults := rfl
@[simp] theorem setPort_hist (p : Nat) (v : Port) (s : State) : (setPort p v s).hist = s.hist := rfl
@[simp] theorem setPort_tests (p : Nat) (v : Port) (s : State) : (setPort p v s).tests = s.tests := rfl
@[simp] theorem setPort_plan (p : Nat) (v : Port) (s : State) : (setPort p v s).plan = s.plan := rfl
@[simp] theorem setPort_seqs (p : Nat) (v : Port) (s : State) : (setPort p v s).seqs = s.seqs := rfl
@[simp] theorem setPort_clusters (p : Nat) (v : Port) (s : State) : (setPort p v s).clusters = s.clusters := rfl
@[simp] theorem setPort_eaHold (p : Nat) (v : Port) (s : State) : (setPort p v s).eaHold = s.eaHold := rfl
@[simp] theorem setPort_ord0 (p : Nat) (v : Port) (s : State) : (setPort p v s).ord0 = s.ord0 := rfl
@[simp] theorem setPort_ord1 (p : Nat) (v : Port) (s : State) : (setPort p v s).ord1 = s.ord1 := rfl
@[simp] theorem setPort_queues (p : Nat) (v : Port) (s : State) : (setPort p v s).queues = s.queues := rfl
@[simp] theorem setPort_fcHigh (p : Nat) (v : Port) (s : State) : (setPort p v s).fcHigh = s.fcHigh := rfl
@[simp] theorem setPort_fcLow (p : Nat) (v : Port) (s : State) : (setPort p v s).fcLow = s.fcLow := rfl
@[simp] theorem setPort_islands (p : Nat) (v : Port) (s : State) : (setPort p v s).islands = s.islands := rfl
@[simp] theorem setPort_stackTab (p : Nat) (v : Port) (s : State) : (setPort p v s).stackTab = s.stackTab := rfl
@[simp] theorem setPort_twin (p : Nat) (v : Port) (s : State) : (setPort p v s).twin = s.twin := rfl
@[simp] theorem setPort_out (p : Nat) (v : Port) (s : State) : (setPort p v s).out = s.out := rfl
@[simp] theorem setPort_freeIdx (p : Nat) (v : Port) (s : State) : (setPort p v s).freeIdx = s.freeIdx := rfl
@[simp] theorem setPort_pending (p : Nat) (v : Port) (s : State) : (setPort p v s).pending = s.pending := rfl

@[simp] theorem modPort_hw (p : Nat) (f : Port → Port) (s : State) : (modPort p f s).hw = s.hw := rfl
@[simp] theorem modPort_objs (p : Nat) (f : Port → Port) (s : State) : (modPort p f s).objs = s.objs := rfl
@[simp] theorem modPort_clock (p : Nat) (f : Port → Port) (s : State) : (modPort p f s).clock = s.clock := rfl
@[simp] theorem modPort_boot (p : Nat) (f : Port → Port) (s : State) : (modPort p f s).boot = s.boot := rfl
@[simp] theorem modPort_dict (p : Nat) (f : Port → Port) (s : State) : (modPort p f s).dict = s.dict := rfl
@[simp] theorem modPort_pres (p : Nat) (f : Port → Port) (s : State) : (modPort p f s).pres = s.pres := rfl
@[simp] theorem modPort_faults (p : Nat) (f : Port → Port) (s : State) : (modPort p f s).faults = s.faults := rfl
@[simp] theorem modPort_hist (p : Nat) (f : Port → Port) (s : State) : (modPort p f s).hist = s.hist := rfl
@[simp] theorem modPort_tests (p : Nat) (f : Port → Port) (s : State) : (modPort p f s).tests = s.tests := rfl
@[simp] theorem modPort_plan (p : Nat) (f : Port → Port) (s : State) : (modPort p f s).plan = s.plan := rfl
@[simp] theorem modPort_seqs (p : Nat) (f : Port → Port) (s : State) : (modPort p f s).seqs = s.seqs := rfl
@[simp] theorem modPort_clusters (p : Nat) (f : Port → Port) (s : State) : (modPort p f s).clusters = s.clusters := rfl
@[simp] theorem modPort_eaHold (p : Nat) (f : Port → Port) (s : State) : (modPort p f s).eaHold = s.eaHold := rfl
@[simp] theorem modPort_ord0 (p : Nat) (f : Port → Port) (s : State) : (modPort p f s).ord0 = s.ord0 := rfl
@[simp] theorem modPort_ord1 (p : Nat) (f : Port → Port) (s : State) : (modPort p f s).ord1 = s.ord1 := rfl
@[simp] theorem modPort_queues (p : Nat) (f : Port → Port) (s : State) : (modPort p f s).queues = s.queues := rfl
@[simp] theorem modPort_fcHigh (p : Nat) (f : Port → Port) (s : State) : (modPort p f s).fcHigh = s.fcHigh := rfl
@[simp] theorem modPort_fcLow (p : Nat) (f : Port → Port) (s : State) : (modPort p f s).fcLow = s.fcLow := rfl
@[simp] theorem modPort_islands (p : Nat) (f : Port → Port) (s : State) : (modPort p f s).islands = s.islands := rfl
@[simp] theorem modPort_stackTab (p : Nat) (f : Port → Port) (s : State) : (modPort p f s).stackTab = s.stackTab := rfl
@[simp] theorem modPort_twin (p : Nat) (f : Port → Port) (s : State) : (modPort p f s).twin = s.twin := rfl
@[simp] theorem modPort_out (p : Nat) (f : Port → Port) (s : State) : (modPort p f s).out = s.out := rfl
@[simp] theorem modPort_freeIdx (p : Nat) (f : Port → Port) (s : State) : (modPort p f s).freeIdx = s.freeIdx := rfl
@[simp] theorem modPort_pending (p : Nat) (f : Port → Port) (s : State) : (modPort p f s).pending = s.pending := rfl

@[simp] theorem setQueue_hw (q : Nat) (v : QueueSt) (s : State) : (setQueue q v s).hw = s.hw := rfl
@[simp] theorem setQueue_objs (q : Nat) (v : QueueSt) (s : State) : (setQueue q v s).objs = s.objs := rfl
@[simp] theorem setQueue_clock (q : Nat) (v : QueueSt) (s : State) : (setQueue q v s).clock = s.clock := rfl
@[simp] theorem setQueue_boot (q : Nat) (v : QueueSt) (s : State) : (setQueue q v s).boot = s.boot := rfl
@[simp] theorem setQueue_dict (q : Nat) (v : QueueSt) (s : State) : (setQueue q v s).dict = s.dict := rfl
@[simp] theorem setQueue_pres (q : Nat) (v : QueueSt) (s : State) : (setQueue q v s).pres = s.pres := rfl
@[simp] theorem setQueue_faults (q : Nat) (v : QueueSt) (s : State) : (setQueue q v s).faults = s.faults := rfl
@[simp] theorem setQueue_hist (q : Nat) (v : QueueSt) (s : State) : (setQueue q v s).hist = s.hist := rfl
@[simp] theorem setQueue_tests (q : Nat) (v : QueueSt) (s : State) : (setQueue q v s).tests = s.tests := rfl
@[simp] theorem setQueue_plan (q : Nat) (v : QueueSt) (s : State) : (setQueue q v s).plan = s.plan := rfl
@[simp] theorem setQueue_seqs (q : Nat) (v : QueueSt) (s : State) : (setQueue q v s).seqs = s.seqs := rfl
@[simp] theorem setQueue_clusters (q : Nat) (v : QueueSt) (s : State) : (setQueue q v s).clusters = s.clusters := rfl
@[simp] theorem setQueue_ports (q : Nat) (v : QueueSt) (s : State) : (setQueue q v s).ports = s.ports := rfl
@[simp] theorem setQueue_eaHold (q : Nat) (v : QueueSt) (s : State) : (setQueue q v s).eaHold = s.eaHold := rfl
@[simp] theorem setQueue_ord0 (q : Nat) (v : QueueSt) (s : State) : (setQueue q v s).ord0 = s.ord0 := rfl
@[simp] theorem setQueue_ord1 (q : Nat) (v : QueueSt) (s : State) : (setQueue q v s).ord1 = s.ord1 := rfl
@[simp] theorem setQueue_fcHigh (q : Nat) (v : QueueSt) (s : State) : (setQueue q v s).fcHigh = s.fcHigh := rfl
@[simp] theorem setQueue_fcLow (q : Nat) (v : QueueSt) (s : State) : (setQueue q v s).fcLow = s.fcLow := rfl
@[simp] theorem setQueue_islands (q : Nat) (v : QueueSt) (s : State) : (setQueue q v s).islands = s.islands := rfl
@[simp] theorem setQueue_stackTab (q : Nat) (v : QueueSt) (s : State) : (setQueue q v s).stackTab = s.stackTab := rfl
@[simp] theorem setQueue_twin (q : Nat) (v : QueueSt) (s : State) : (setQueue q v s).twin = s.twin := rfl
@[simp] theorem setQueue_out (q : Nat) (v : QueueSt) (s : State) : (setQueue q v s).out = s.out := rfl
@[simp] theorem setQueue_freeIdx (q : Nat) (v : QueueSt) (s : State) : (setQueue q v s).freeIdx = s.freeIdx := rfl
@[simp] theorem setQueue_pending (q : Nat) (v : QueueSt) (s : State) : (setQueue q v s).pending = s.pending := rfl

@[simp] theorem setStack_hw (k : Nat) (v : Stack) (s : State) : (setStack k v s).hw = s.hw := rfl
@[simp] theorem setStack_objs (k : Nat) (v : Stack) (s : State) : (setStack k v s).objs = s.objs := rfl
@[simp] theorem setStack_clock (k : Nat) (v : Stack) (s : State) : (setStack k v s).clock = s.clock := rfl
@[simp] theorem setStack_boot (k : Nat) (v : Stack) (s : State) : (setStack k v s).boot = s.boot := rfl
@[simp] theorem setStack_dict (k : Nat) (v : Stack) (s : State) : (setStack k v s).dict = s.dict := rfl
@[simp] theorem setStack_pres (k : Nat) (v : Stack) (s : State) : (setStack k v s).pres = s.pres := rfl
@[simp] theorem setStack_faults (k : Nat) (v : Stack) (s : State) : (setStack k v s).faults = s.faults := rfl
@[simp] theorem setStack_hist (k : Nat) (v : Stack) (s : State) : (setStack k v s).hist = s.hist := rfl
@[simp] theorem setStack_tests (k : Nat) (v : Stack) (s : State) : (setStack k v s).tests = s.tests := rfl
@[simp] theorem setStack_plan (k : Nat) (v : Stack) (s : State) : (setStack k v s).plan = s.plan := rfl
@[simp] theorem setStack_seqs (k : Nat) (v : Stack) (s : State) : (setStack k v s).seqs = s.seqs := rfl
@[simp] theorem setStack_clusters (k : Nat) (v : Stack) (s : State) : (setStack k v s).clusters = s.clusters := rfl
@[simp] theorem setStack_ports (k : Nat) (v : Stack) (s : State) : (setStack k v s).ports = s.ports := rfl
@[simp] theorem setStack_eaHold (k : Nat) (v : Stack) (s : State) : (setStack k v s).eaHold = s.eaHold := rfl
@[simp] theorem setStack_ord0 (k : Nat) (v : Stack) (s : State) : (setStack k v s).ord0 = s.ord0 := rfl
@[simp] theorem setStack_ord1 (k : Nat) (v : Stack) (s : State) : (setStack k v s).ord1 = s.ord1 := rfl
@[simp] theorem setStack_queues (k : Nat) (v : Stack) (s : State) : (setStack k v s).queues = s.queues := rfl
@[simp] theorem setStack_fcHigh (k : Nat) (v : Stack) (s : State) : (setStack k v s).fcHigh = s.fcHigh := rfl
@[simp] theorem setStack_fcLow (k : Nat) (v : Stack) (s : State) : (setStack k v s).fcLow = s.fcLow := rfl
@[simp] theorem setStack_islands (k : Nat) (v : Stack) (s : State) : (setStack k v s).islands = s.islands := rfl
@[simp] theorem setStack_twin (k : Nat) (v : Stack) (s : State) : (setStack k v s).twin = s.twin := rfl
@[simp] theorem setStack_out (k : Nat) (v : Stack) (s : State) : (setStack k v s).out = s.out := rfl
@[simp] theorem setStack_freeIdx (k : Nat) (v : Stack) (s : State) : (setStack k v s).freeIdx = s.freeIdx := rfl
@[simp] theorem setStack_pending (k : Nat) (v : Stack) (s : State) : (setStack k v s).pending = s.pending := rfl

@[simp] theorem setSrc_hw (k : Nat) (v : SrcState) (s : State) : (setSrc k v s).hw = s.hw := rfl
@[simp] theorem setSrc_objs (k : Nat) (v : SrcState) (s : State) : (setSrc k v s).objs = s.objs := rfl
@[simp] theorem setSrc_clock (k : Nat) (v : SrcState) (s : State) : (setSrc k v s).clock = s.clock := rfl
@[simp] theorem setSrc_boot (k : Nat) (v : SrcState) (s : State) : (setSrc k v s).boot = s.boot := rfl
@[simp] theorem setSrc_dict (k : Nat) (v : SrcState) (s : State) : (setSrc k v s).dict = s.dict := rfl
@[simp] theorem setSrc_pres (k : Nat) (v : SrcState) (s : State) : (setSrc k v s).pres = s.pres := rfl
@[simp] theorem setSrc_hist (k : Nat) (v : SrcState) (s : State) : (setSrc k v s).hist = s.hist := rfl
@[simp] theorem setSrc_tests (k : Nat) (v : SrcState) (s : State) : (setSrc k v s).tests = s.tests := rfl
@[simp] theorem setSrc_plan (k : Nat) (v : SrcState) (s : State) : (setSrc k v s).plan = s.plan := rfl
@[simp] theorem setSrc_seqs (k : Nat) (v : SrcState) (s : State) : (setSrc k v s).seqs = s.seqs := rfl
@[simp] theorem setSrc_clusters (k : Nat) (v : SrcState) (s : State) : (setSrc k v s).clusters = s.clusters := rfl
@[simp] theorem setSrc_ports (k : Nat) (v : SrcState) (s : State) : (setSrc k v s).ports = s.ports := rfl
@[simp] theorem setSrc_eaHold (k : Nat) (v : SrcState) (s : State) : (setSrc k v s).eaHold = s.eaHold := rfl
@[simp] theorem setSrc_ord0 (k : Nat) (v : SrcState) (s : State) : (setSrc k v s).ord0 = s.ord0 := rfl
@[simp] theorem setSrc_ord1 (k : Nat) (v : SrcState) (s : State) : (setSrc k v s).ord1 = s.ord1 := rfl
@[simp] theorem setSrc_queues (k : Nat) (v : SrcState) (s : State) : (setSrc k v s).queues = s.queues := rfl
@[simp] theorem setSrc_fcHigh (k : Nat) (v : SrcState) (s : State) : (setSrc k v s).fcHigh = s.fcHigh := rfl
@[simp] theorem setSrc_fcLow (k : Nat) (v : SrcState) (s : State) : (setSrc k v s).fcLow = s.fcLow := rfl
@[simp] theorem setSrc_islands (k : Nat) (v : SrcState) (s : State) : (setSrc k v s).islands = s.islands := rfl
@[simp] theorem setSrc_stackTab (k : Nat) (v : SrcState) (s : State) : (setSrc k v s).stackTab = s.stackTab := rfl
@[simp] theorem setSrc_twin (k : Nat) (v : SrcState) (s : State) : (setSrc k v s).twin = s.twin := rfl
@[simp] theorem setSrc_out (k : Nat) (v : SrcState) (s : State) : (setSrc k v s).out = s.out := rfl
@[simp] theorem setSrc_freeIdx (k : Nat) (v : SrcState) (s : State) : (setSrc k v s).freeIdx = s.freeIdx := rfl
@[simp] theorem setSrc_pending (k : Nat) (v : SrcState) (s : State) : (setSrc k v s).pending = s.pending := rfl

@[simp] theorem emit_hw (o : Out) (s : State) : (emit o s).hw = s.hw := rfl
@[simp] theorem emit_objs (o : Out) (s : State) : (emit o s).objs = s.objs := rfl
@[simp] theorem emit_clock (o : Out) (s : State) : (emit o s).clock = s.clock := rfl
@[simp] theorem emit_boot (o : Out) (s : State) : (emit o s).boot = s.boot := rfl
@[simp] theorem emit_dict (o : Out) (s : State) : (emit o s).dict = s.dict := rfl
@[simp] theorem emit_pres (o : Out) (s : State) : (emit o s).pres = s.pres := rfl
@[simp] theorem emit_faults (o : Out) (s : State) : (emit o s).faults = s.faults := rfl
@[simp] theorem emit_hist (o : Out) (s : State) : (emit o s).hist = s.hist := rfl
@[simp] theorem emit_tests (o : Out) (s : State) : (emit o s).tests = s.tests := rfl
@[simp] theorem emit_plan (o : Out) (s : State) : (emit o s).plan = s.plan := rfl
@[simp] theorem emit_seqs (o : Out) (s : State) : (emit o s).seqs = s.seqs := rfl
@[simp] theorem emit_clusters (o : Out) (s : State) : (emit o s).clusters = s.clusters := rfl
@[simp] theorem emit_ports (o : Out) (s : State) : (emit o s).ports = s.ports := rfl
@[simp] theorem emit_eaHold (o : Out) (s : State) : (emit o s).eaHold = s.eaHold := rfl
@[simp] theorem emit_ord0 (o : Out) (s : State) : (emit o s).ord0 = s.ord0 := rfl
@[simp] theorem emit_ord1 (o : Out) (s : State) : (emit o s).ord1 = s.ord1 := rfl
@[simp] theorem emit_queues (o : Out) (s : State) : (emit o s).queues = s.queues := rfl
@[simp] theorem emit_fcHigh (o : Out) (s : State) : (emit o s).fcHigh = s.fcHigh := rfl
@[simp] theorem emit_fcLow (o : Out) (s : State) : (emit o s).fcLow = s.fcLow := rfl
@[simp] theorem emit_islands (o : Out) (s : State) : (emit o s).islands = s.islands := rfl
@[simp] theorem emit_stackTab (o : Out) (s : State) : (emit o s).stackTab = s.stackTab := rfl
@[simp] theorem emit_twin (o : Out) (s : State) : (emit o s).twin = s.twin := rfl
@[simp] theorem emit_freeIdx (o : Out) (s : State) : (emit o s).freeIdx = s.freeIdx := rfl
@[simp] theorem emit_pending (o : Out) (s : State) : (emit o s).pending = s.pending := rfl

@[simp] theorem raise_hw (d : Detection) (s : State) : (raise d s).hw = s.hw := rfl
@[simp] theorem raise_objs (d : Detection) (s : State) : (raise d s).objs = s.objs := rfl
@[simp] theorem raise_clock (d : Detection) (s : State) : (raise d s).clock = s.clock := rfl
@[simp] theorem raise_boot (d : Detection) (s : State) : (raise d s).boot = s.boot := rfl
@[simp] theorem raise_dict (d : Detection) (s : State) : (raise d s).dict = s.dict := rfl
@[simp] theorem raise_pres (d : Detection) (s : State) : (raise d s).pres = s.pres := rfl
@[simp] theorem raise_hist (d : Detection) (s : State) : (raise d s).hist = s.hist := rfl
@[simp] theorem raise_tests (d : Detection) (s : State) : (raise d s).tests = s.tests := rfl
@[simp] theorem raise_plan (d : Detection) (s : State) : (raise d s).plan = s.plan := rfl
@[simp] theorem raise_seqs (d : Detection) (s : State) : (raise d s).seqs = s.seqs := rfl
@[simp] theorem raise_clusters (d : Detection) (s : State) : (raise d s).clusters = s.clusters := rfl
@[simp] theorem raise_ports (d : Detection) (s : State) : (raise d s).ports = s.ports := rfl
@[simp] theorem raise_eaHold (d : Detection) (s : State) : (raise d s).eaHold = s.eaHold := rfl
@[simp] theorem raise_ord0 (d : Detection) (s : State) : (raise d s).ord0 = s.ord0 := rfl
@[simp] theorem raise_ord1 (d : Detection) (s : State) : (raise d s).ord1 = s.ord1 := rfl
@[simp] theorem raise_queues (d : Detection) (s : State) : (raise d s).queues = s.queues := rfl
@[simp] theorem raise_fcHigh (d : Detection) (s : State) : (raise d s).fcHigh = s.fcHigh := rfl
@[simp] theorem raise_fcLow (d : Detection) (s : State) : (raise d s).fcLow = s.fcLow := rfl
@[simp] theorem raise_islands (d : Detection) (s : State) : (raise d s).islands = s.islands := rfl
@[simp] theorem raise_stackTab (d : Detection) (s : State) : (raise d s).stackTab = s.stackTab := rfl
@[simp] theorem raise_twin (d : Detection) (s : State) : (raise d s).twin = s.twin := rfl
@[simp] theorem raise_out (d : Detection) (s : State) : (raise d s).out = s.out := rfl
@[simp] theorem raise_pending (d : Detection) (s : State) : (raise d s).pending = s.pending := rfl

@[simp] theorem flagStream_hw (st : Nat) (f : StreamFlags → StreamFlags) (s : State) : (flagStream st f s).hw = s.hw := rfl
@[simp] theorem flagStream_objs (st : Nat) (f : StreamFlags → StreamFlags) (s : State) : (flagStream st f s).objs = s.objs := rfl
@[simp] theorem flagStream_clock (st : Nat) (f : StreamFlags → StreamFlags) (s : State) : (flagStream st f s).clock = s.clock := rfl
@[simp] theorem flagStream_boot (st : Nat) (f : StreamFlags → StreamFlags) (s : State) : (flagStream st f s).boot = s.boot := rfl
@[simp] theorem flagStream_dict (st : Nat) (f : StreamFlags → StreamFlags) (s : State) : (flagStream st f s).dict = s.dict := rfl
@[simp] theorem flagStream_pres (st : Nat) (f : StreamFlags → StreamFlags) (s : State) : (flagStream st f s).pres = s.pres := rfl
@[simp] theorem flagStream_faults (st : Nat) (f : StreamFlags → StreamFlags) (s : State) : (flagStream st f s).faults = s.faults := rfl
@[simp] theorem flagStream_hist (st : Nat) (f : StreamFlags → StreamFlags) (s : State) : (flagStream st f s).hist = s.hist := rfl
@[simp] theorem flagStream_tests (st : Nat) (f : StreamFlags → StreamFlags) (s : State) : (flagStream st f s).tests = s.tests := rfl
@[simp] theorem flagStream_seqs (st : Nat) (f : StreamFlags → StreamFlags) (s : State) : (flagStream st f s).seqs = s.seqs := rfl
@[simp] theorem flagStream_clusters (st : Nat) (f : StreamFlags → StreamFlags) (s : State) : (flagStream st f s).clusters = s.clusters := rfl
@[simp] theorem flagStream_ports (st : Nat) (f : StreamFlags → StreamFlags) (s : State) : (flagStream st f s).ports = s.ports := rfl
@[simp] theorem flagStream_eaHold (st : Nat) (f : StreamFlags → StreamFlags) (s : State) : (flagStream st f s).eaHold = s.eaHold := rfl
@[simp] theorem flagStream_ord0 (st : Nat) (f : StreamFlags → StreamFlags) (s : State) : (flagStream st f s).ord0 = s.ord0 := rfl
@[simp] theorem flagStream_ord1 (st : Nat) (f : StreamFlags → StreamFlags) (s : State) : (flagStream st f s).ord1 = s.ord1 := rfl
@[simp] theorem flagStream_queues (st : Nat) (f : StreamFlags → StreamFlags) (s : State) : (flagStream st f s).queues = s.queues := rfl
@[simp] theorem flagStream_fcHigh (st : Nat) (f : StreamFlags → StreamFlags) (s : State) : (flagStream st f s).fcHigh = s.fcHigh := rfl
@[simp] theorem flagStream_fcLow (st : Nat) (f : StreamFlags → StreamFlags) (s : State) : (flagStream st f s).fcLow = s.fcLow := rfl
@[simp] theorem flagStream_islands (st : Nat) (f : StreamFlags → StreamFlags) (s : State) : (flagStream st f s).islands = s.islands := rfl
@[simp] theorem flagStream_stackTab (st : Nat) (f : StreamFlags → StreamFlags) (s : State) : (flagStream st f s).stackTab = s.stackTab := rfl
@[simp] theorem flagStream_twin (st : Nat) (f : StreamFlags → StreamFlags) (s : State) : (flagStream st f s).twin = s.twin := rfl
@[simp] theorem flagStream_out (st : Nat) (f : StreamFlags → StreamFlags) (s : State) : (flagStream st f s).out = s.out := rfl
@[simp] theorem flagStream_freeIdx (st : Nat) (f : StreamFlags → StreamFlags) (s : State) : (flagStream st f s).freeIdx = s.freeIdx := rfl
@[simp] theorem flagStream_pending (st : Nat) (f : StreamFlags → StreamFlags) (s : State) : (flagStream st f s).pending = s.pending := rfl

@[simp] theorem bump_hw (k n : Nat) (s : State) : (bump k n s).hw = s.hw := rfl
@[simp] theorem bump_clock (k n : Nat) (s : State) : (bump k n s).clock = s.clock := rfl
@[simp] theorem bump_boot (k n : Nat) (s : State) : (bump k n s).boot = s.boot := rfl
@[simp] theorem bump_dict (k n : Nat) (s : State) : (bump k n s).dict = s.dict := rfl
@[simp] theorem bump_pres (k n : Nat) (s : State) : (bump k n s).pres = s.pres := rfl
@[simp] theorem bump_faults (k n : Nat) (s : State) : (bump k n s).faults = s.faults := rfl
@[simp] theorem bump_hist (k n : Nat) (s : State) : (bump k n s).hist = s.hist := rfl
@[simp] theorem bump_tests (k n : Nat) (s : State) : (bump k n s).tests = s.tests := rfl
@[simp] theorem bump_plan (k n : Nat) (s : State) : (bump k n s).plan = s.plan := rfl
@[simp] theorem bump_seqs (k n : Nat) (s : State) : (bump k n s).seqs = s.seqs := rfl
@[simp] theorem bump_clusters (k n : Nat) (s : State) : (bump k n s).clusters = s.clusters := rfl
@[simp] theorem bump_ports (k n : Nat) (s : State) : (bump k n s).ports = s.ports := rfl
@[simp] theorem bump_eaHold (k n : Nat) (s : State) : (bump k n s).eaHold = s.eaHold := rfl
@[simp] theorem bump_ord0 (k n : Nat) (s : State) : (bump k n s).ord0 = s.ord0 := rfl
@[simp] theorem bump_ord1 (k n : Nat) (s : State) : (bump k n s).ord1 = s.ord1 := rfl
@[simp] theorem bump_queues (k n : Nat) (s : State) : (bump k n s).queues = s.queues := rfl
@[simp] theorem bump_fcHigh (k n : Nat) (s : State) : (bump k n s).fcHigh = s.fcHigh := rfl
@[simp] theorem bump_fcLow (k n : Nat) (s : State) : (bump k n s).fcLow = s.fcLow := rfl
@[simp] theorem bump_islands (k n : Nat) (s : State) : (bump k n s).islands = s.islands := rfl
@[simp] theorem bump_stackTab (k n : Nat) (s : State) : (bump k n s).stackTab = s.stackTab := rfl
@[simp] theorem bump_twin (k n : Nat) (s : State) : (bump k n s).twin = s.twin := rfl
@[simp] theorem bump_out (k n : Nat) (s : State) : (bump k n s).out = s.out := rfl
@[simp] theorem bump_freeIdx (k n : Nat) (s : State) : (bump k n s).freeIdx = s.freeIdx := rfl
@[simp] theorem bump_pending (k n : Nat) (s : State) : (bump k n s).pending = s.pending := rfl

@[simp] theorem bumpIf_hw (b : Bool) (k n : Nat) (s : State) : (bumpIf b k n s).hw = s.hw := by cases b <;> rfl
@[simp] theorem bumpIf_clock (b : Bool) (k n : Nat) (s : State) : (bumpIf b k n s).clock = s.clock := by cases b <;> rfl
@[simp] theorem bumpIf_boot (b : Bool) (k n : Nat) (s : State) : (bumpIf b k n s).boot = s.boot := by cases b <;> rfl
@[simp] theorem bumpIf_dict (b : Bool) (k n : Nat) (s : State) : (bumpIf b k n s).dict = s.dict := by cases b <;> rfl
@[simp] theorem bumpIf_pres (b : Bool) (k n : Nat) (s : State) : (bumpIf b k n s).pres = s.pres := by cases b <;> rfl
@[simp] theorem bumpIf_faults (b : Bool) (k n : Nat) (s : State) : (bumpIf b k n s).faults = s.faults := by cases b <;> rfl
@[simp] theorem bumpIf_hist (b : Bool) (k n : Nat) (s : State) : (bumpIf b k n s).hist = s.hist := by cases b <;> rfl
@[simp] theorem bumpIf_tests (b : Bool) (k n : Nat) (s : State) : (bumpIf b k n s).tests = s.tests := by cases b <;> rfl
@[simp] theorem bumpIf_plan (b : Bool) (k n : Nat) (s : State) : (bumpIf b k n s).plan = s.plan := by cases b <;> rfl
@[simp] theorem bumpIf_seqs (b : Bool) (k n : Nat) (s : State) : (bumpIf b k n s).seqs = s.seqs := by cases b <;> rfl
@[simp] theorem bumpIf_clusters (b : Bool) (k n : Nat) (s : State) : (bumpIf b k n s).clusters = s.clusters := by cases b <;> rfl
@[simp] theorem bumpIf_ports (b : Bool) (k n : Nat) (s : State) : (bumpIf b k n s).ports = s.ports := by cases b <;> rfl
@[simp] theorem bumpIf_eaHold (b : Bool) (k n : Nat) (s : State) : (bumpIf b k n s).eaHold = s.eaHold := by cases b <;> rfl
@[simp] theorem bumpIf_ord0 (b : Bool) (k n : Nat) (s : State) : (bumpIf b k n s).ord0 = s.ord0 := by cases b <;> rfl
@[simp] theorem bumpIf_ord1 (b : Bool) (k n : Nat) (s : State) : (bumpIf b k n s).ord1 = s.ord1 := by cases b <;> rfl
@[simp] theorem bumpIf_queues (b : Bool) (k n : Nat) (s : State) : (bumpIf b k n s).queues = s.queues := by cases b <;> rfl
@[simp] theorem bumpIf_fcHigh (b : Bool) (k n : Nat) (s : State) : (bumpIf b k n s).fcHigh = s.fcHigh := by cases b <;> rfl
@[simp] theorem bumpIf_fcLow (b : Bool) (k n : Nat) (s : State) : (bumpIf b k n s).fcLow = s.fcLow := by cases b <;> rfl
@[simp] theorem bumpIf_islands (b : Bool) (k n : Nat) (s : State) : (bumpIf b k n s).islands = s.islands := by cases b <;> rfl
@[simp] theorem bumpIf_stackTab (b : Bool) (k n : Nat) (s : State) : (bumpIf b k n s).stackTab = s.stackTab := by cases b <;> rfl
@[simp] theorem bumpIf_twin (b : Bool) (k n : Nat) (s : State) : (bumpIf b k n s).twin = s.twin := by cases b <;> rfl
@[simp] theorem bumpIf_out (b : Bool) (k n : Nat) (s : State) : (bumpIf b k n s).out = s.out := by cases b <;> rfl
@[simp] theorem bumpIf_freeIdx (b : Bool) (k n : Nat) (s : State) : (bumpIf b k n s).freeIdx = s.freeIdx := by cases b <;> rfl
@[simp] theorem bumpIf_pending (b : Bool) (k n : Nat) (s : State) : (bumpIf b k n s).pending = s.pending := by cases b <;> rfl

/-! ## Reads after writes -/

theorem obj_congr {s t : State} (hw : t.hw = s.hw) (ho : t.objs = s.objs) (k : Nat) : obj t k = obj s k := by
  simp [obj, hw, ho]

@[simp] theorem obj_setObj_same (k v : Nat) (s : State) : obj (setObj k v s) k = v := by simp [obj, setObj]

theorem obj_setObj_other (k v j : Nat) (s : State) (h : j ≠ k) : obj (setObj k v s) j = obj s j := by
  unfold obj setObj
  simp only [tset]
  split
  · exact tget_tdel_other _ _ _ _ h
  · exact tget_tins_other _ _ _ _ _ h

@[simp] theorem obj_bump_same (k n : Nat) (s : State) : obj (bump k n s) k = min (obj s k + n) (objMax s.hw k) := by simp [bump]

theorem obj_bump_other (k n j : Nat) (s : State) (h : j ≠ k) : obj (bump k n s) j = obj s j := obj_setObj_other k _ j s h

theorem obj_bumpIf_other (b : Bool) (k n j : Nat) (s : State) (h : j ≠ k) : obj (bumpIf b k n s) j = obj s j := by
  cases b
  · rfl
  · exact obj_bump_other k n j s h

@[simp] theorem getSeq_setSeq_same (k : Nat) (v : Seq) (s : State) : getSeq (setSeq k v s) k = v := by simp [getSeq, setSeq]

theorem getSeq_setSeq_other (k j : Nat) (v : Seq) (s : State) (h : j ≠ k) : getSeq (setSeq k v s) j = getSeq s j :=
  tget_tset_other _ _ _ _ _ h

theorem getSeq_congr {s t : State} (h : t.seqs = s.seqs) (k : Nat) : getSeq t k = getSeq s k := by simp [getSeq, h]

@[simp] theorem getCl_setCl_same (k : Nat) (v : Cluster) (s : State) : getCl (setCl k v s) k = v := by simp [getCl, setCl]

theorem getCl_setCl_other (k j : Nat) (v : Cluster) (s : State) (h : j ≠ k) : getCl (setCl k v s) j = getCl s j :=
  tget_tset_other _ _ _ _ _ h

theorem getCl_congr {s t : State} (h : t.clusters = s.clusters) (k : Nat) : getCl t k = getCl s k := by simp [getCl, h]

@[simp] theorem getPort_setPort_same (k : Nat) (v : Port) (s : State) : getPort (setPort k v s) k = v := by simp [getPort, setPort]

theorem getPort_setPort_other (k j : Nat) (v : Port) (s : State) (h : j ≠ k) : getPort (setPort k v s) j = getPort s j :=
  tget_tset_other _ _ _ _ _ h

theorem getPort_congr {s t : State} (h : t.ports = s.ports) (k : Nat) : getPort t k = getPort s k := by simp [getPort, h]

@[simp] theorem getQueue_setQueue_same (k : Nat) (v : QueueSt) (s : State) : getQueue (setQueue k v s) k = v := by simp [getQueue, setQueue]

theorem getQueue_setQueue_other (k j : Nat) (v : QueueSt) (s : State) (h : j ≠ k) : getQueue (setQueue k v s) j = getQueue s j :=
  tget_tset_other _ _ _ _ _ h

theorem getQueue_congr {s t : State} (h : t.queues = s.queues) (k : Nat) : getQueue t k = getQueue s k := by simp [getQueue, h]

@[simp] theorem getStack_setStack_same (k : Nat) (v : Stack) (s : State) : getStack (setStack k v s) k = v := by simp [getStack, setStack]

theorem getStack_setStack_other (k j : Nat) (v : Stack) (s : State) (h : j ≠ k) : getStack (setStack k v s) j = getStack s j :=
  tget_tset_other _ _ _ _ _ h

theorem getStack_congr {s t : State} (h : t.stackTab = s.stackTab) (k : Nat) : getStack t k = getStack s k := by simp [getStack, h]

@[simp] theorem getSrc_setSrc_same (k : Nat) (v : SrcState) (s : State) : getSrc (setSrc k v s) k = v := by simp [getSrc, setSrc]

theorem getSrc_setSrc_other (k j : Nat) (v : SrcState) (s : State) (h : j ≠ k) : getSrc (setSrc k v s) j = getSrc s j :=
  tget_tset_other _ _ _ _ _ h

theorem getSrc_congr {s t : State} (h : t.faults = s.faults) (k : Nat) : getSrc t k = getSrc s k := by simp [getSrc, h]

@[simp] theorem getSeq_modSeq_same (k : Nat) (f : Seq → Seq) (s : State) : getSeq (modSeq k f s) k = f (getSeq s k) := by simp [modSeq]

theorem getSeq_modSeq_other (k j : Nat) (f : Seq → Seq) (s : State) (h : j ≠ k) : getSeq (modSeq k f s) j = getSeq s j := by
  simp [modSeq, getSeq_setSeq_other _ _ _ _ h]

@[simp] theorem getCl_modCl_same (k : Nat) (f : Cluster → Cluster) (s : State) : getCl (modCl k f s) k = f (getCl s k) := by simp [modCl]

theorem getCl_modCl_other (k j : Nat) (f : Cluster → Cluster) (s : State) (h : j ≠ k) : getCl (modCl k f s) j = getCl s j := by
  simp [modCl, getCl_setCl_other _ _ _ _ h]

@[simp] theorem getPort_modPort_same (k : Nat) (f : Port → Port) (s : State) : getPort (modPort k f s) k = f (getPort s k) := by simp [modPort]

theorem getPort_modPort_other (k j : Nat) (f : Port → Port) (s : State) (h : j ≠ k) : getPort (modPort k f s) j = getPort s j := by
  simp [modPort, getPort_setPort_other _ _ _ _ h]

@[simp] theorem getSeq_setObj (k v : Nat) (s : State) (j : Nat) : getSeq (setObj k v s) j = getSeq s j := rfl
@[simp] theorem getCl_setObj (k v : Nat) (s : State) (j : Nat) : getCl (setObj k v s) j = getCl s j := rfl
@[simp] theorem getPort_setObj (k v : Nat) (s : State) (j : Nat) : getPort (setObj k v s) j = getPort s j := rfl
@[simp] theorem getQueue_setObj (k v : Nat) (s : State) (j : Nat) : getQueue (setObj k v s) j = getQueue s j := rfl
@[simp] theorem getStack_setObj (k v : Nat) (s : State) (j : Nat) : getStack (setObj k v s) j = getStack s j := rfl
@[simp] theorem getSrc_setObj (k v : Nat) (s : State) (j : Nat) : getSrc (setObj k v s) j = getSrc s j := rfl
@[simp] theorem obj_setSeq (q : Nat) (v : Seq) (s : State) (j : Nat) : obj (setSeq q v s) j = obj s j := rfl
@[simp] theorem getCl_setSeq (q : Nat) (v : Seq) (s : State) (j : Nat) : getCl (setSeq q v s) j = getCl s j := rfl
@[simp] theorem getPort_setSeq (q : Nat) (v : Seq) (s : State) (j : Nat) : getPort (setSeq q v s) j = getPort s j := rfl
@[simp] theorem getQueue_setSeq (q : Nat) (v : Seq) (s : State) (j : Nat) : getQueue (setSeq q v s) j = getQueue s j := rfl
@[simp] theorem getStack_setSeq (q : Nat) (v : Seq) (s : State) (j : Nat) : getStack (setSeq q v s) j = getStack s j := rfl
@[simp] theorem getSrc_setSeq (q : Nat) (v : Seq) (s : State) (j : Nat) : getSrc (setSeq q v s) j = getSrc s j := rfl
@[simp] theorem obj_modSeq (q : Nat) (f : Seq → Seq) (s : State) (j : Nat) : obj (modSeq q f s) j = obj s j := rfl
@[simp] theorem getCl_modSeq (q : Nat) (f : Seq → Seq) (s : State) (j : Nat) : getCl (modSeq q f s) j = getCl s j := rfl
@[simp] theorem getPort_modSeq (q : Nat) (f : Seq → Seq) (s : State) (j : Nat) : getPort (modSeq q f s) j = getPort s j := rfl
@[simp] theorem getQueue_modSeq (q : Nat) (f : Seq → Seq) (s : State) (j : Nat) : getQueue (modSeq q f s) j = getQueue s j := rfl
@[simp] theorem getStack_modSeq (q : Nat) (f : Seq → Seq) (s : State) (j : Nat) : getStack (modSeq q f s) j = getStack s j := rfl
@[simp] theorem getSrc_modSeq (q : Nat) (f : Seq → Seq) (s : State) (j : Nat) : getSrc (modSeq q f s) j = getSrc s j := rfl
@[simp] theorem obj_setCl (c : Nat) (v : Cluster) (s : State) (j : Nat) : obj (setCl c v s) j = obj s j := rfl
@[simp] theorem getSeq_setCl (c : Nat) (v : Cluster) (s : State) (j : Nat) : getSeq (setCl c v s) j = getSeq s j := rfl
@[simp] theorem getPort_setCl (c : Nat) (v : Cluster) (s : State) (j : Nat) : getPort (setCl c v s) j = getPort s j := rfl
@[simp] theorem getQueue_setCl (c : Nat) (v : Cluster) (s : State) (j : Nat) : getQueue (setCl c v s) j = getQueue s j := rfl
@[simp] theorem getStack_setCl (c : Nat) (v : Cluster) (s : State) (j : Nat) : getStack (setCl c v s) j = getStack s j := rfl
@[simp] theorem getSrc_setCl (c : Nat) (v : Cluster) (s : State) (j : Nat) : getSrc (setCl c v s) j = getSrc s j := rfl
@[simp] theorem obj_modCl (c : Nat) (f : Cluster → Cluster) (s : State) (j : Nat) : obj (modCl c f s) j = obj s j := rfl
@[simp] theorem getSeq_modCl (c : Nat) (f : Cluster → Cluster) (s : State) (j : Nat) : getSeq (modCl c f s) j = getSeq s j := rfl
@[simp] theorem getPort_modCl (c : Nat) (f : Cluster → Cluster) (s : State) (j : Nat) : getPort (modCl c f s) j = getPort s j := rfl
@[simp] theorem getQueue_modCl (c : Nat) (f : Cluster → Cluster) (s : State) (j : Nat) : getQueue (modCl c f s) j = getQueue s j := rfl
@[simp] theorem getStack_modCl (c : Nat) (f : Cluster → Cluster) (s : State) (j : Nat) : getStack (modCl c f s) j = getStack s j := rfl
@[simp] theorem getSrc_modCl (c : Nat) (f : Cluster → Cluster) (s : State) (j : Nat) : getSrc (modCl c f s) j = getSrc s j := rfl
@[simp] theorem obj_setPort (p : Nat) (v : Port) (s : State) (j : Nat) : obj (setPort p v s) j = obj s j := rfl
@[simp] theorem getSeq_setPort (p : Nat) (v : Port) (s : State) (j : Nat) : getSeq (setPort p v s) j = getSeq s j := rfl
@[simp] theorem getCl_setPort (p : Nat) (v : Port) (s : State) (j : Nat) : getCl (setPort p v s) j = getCl s j := rfl
@[simp] theorem getQueue_setPort (p : Nat) (v : Port) (s : State) (j : Nat) : getQueue (setPort p v s) j = getQueue s j := rfl
@[simp] theorem getStack_setPort (p : Nat) (v : Port) (s : State) (j : Nat) : getStack (setPort p v s) j = getStack s j := rfl
@[simp] theorem getSrc_setPort (p : Nat) (v : Port) (s : State) (j : Nat) : getSrc (setPort p v s) j = getSrc s j := rfl
@[simp] theorem obj_modPort (p : Nat) (f : Port → Port) (s : State) (j : Nat) : obj (modPort p f s) j = obj s j := rfl
@[simp] theorem getSeq_modPort (p : Nat) (f : Port → Port) (s : State) (j : Nat) : getSeq (modPort p f s) j = getSeq s j := rfl
@[simp] theorem getCl_modPort (p : Nat) (f : Port → Port) (s : State) (j : Nat) : getCl (modPort p f s) j = getCl s j := rfl
@[simp] theorem getQueue_modPort (p : Nat) (f : Port → Port) (s : State) (j : Nat) : getQueue (modPort p f s) j = getQueue s j := rfl
@[simp] theorem getStack_modPort (p : Nat) (f : Port → Port) (s : State) (j : Nat) : getStack (modPort p f s) j = getStack s j := rfl
@[simp] theorem getSrc_modPort (p : Nat) (f : Port → Port) (s : State) (j : Nat) : getSrc (modPort p f s) j = getSrc s j := rfl
@[simp] theorem obj_setQueue (q : Nat) (v : QueueSt) (s : State) (j : Nat) : obj (setQueue q v s) j = obj s j := rfl
@[simp] theorem getSeq_setQueue (q : Nat) (v : QueueSt) (s : State) (j : Nat) : getSeq (setQueue q v s) j = getSeq s j := rfl
@[simp] theorem getCl_setQueue (q : Nat) (v : QueueSt) (s : State) (j : Nat) : getCl (setQueue q v s) j = getCl s j := rfl
@[simp] theorem getPort_setQueue (q : Nat) (v : QueueSt) (s : State) (j : Nat) : getPort (setQueue q v s) j = getPort s j := rfl
@[simp] theorem getStack_setQueue (q : Nat) (v : QueueSt) (s : State) (j : Nat) : getStack (setQueue q v s) j = getStack s j := rfl
@[simp] theorem getSrc_setQueue (q : Nat) (v : QueueSt) (s : State) (j : Nat) : getSrc (setQueue q v s) j = getSrc s j := rfl
@[simp] theorem obj_setStack (k : Nat) (v : Stack) (s : State) (j : Nat) : obj (setStack k v s) j = obj s j := rfl
@[simp] theorem getSeq_setStack (k : Nat) (v : Stack) (s : State) (j : Nat) : getSeq (setStack k v s) j = getSeq s j := rfl
@[simp] theorem getCl_setStack (k : Nat) (v : Stack) (s : State) (j : Nat) : getCl (setStack k v s) j = getCl s j := rfl
@[simp] theorem getPort_setStack (k : Nat) (v : Stack) (s : State) (j : Nat) : getPort (setStack k v s) j = getPort s j := rfl
@[simp] theorem getQueue_setStack (k : Nat) (v : Stack) (s : State) (j : Nat) : getQueue (setStack k v s) j = getQueue s j := rfl
@[simp] theorem getSrc_setStack (k : Nat) (v : Stack) (s : State) (j : Nat) : getSrc (setStack k v s) j = getSrc s j := rfl
@[simp] theorem obj_setSrc (k : Nat) (v : SrcState) (s : State) (j : Nat) : obj (setSrc k v s) j = obj s j := rfl
@[simp] theorem getSeq_setSrc (k : Nat) (v : SrcState) (s : State) (j : Nat) : getSeq (setSrc k v s) j = getSeq s j := rfl
@[simp] theorem getCl_setSrc (k : Nat) (v : SrcState) (s : State) (j : Nat) : getCl (setSrc k v s) j = getCl s j := rfl
@[simp] theorem getPort_setSrc (k : Nat) (v : SrcState) (s : State) (j : Nat) : getPort (setSrc k v s) j = getPort s j := rfl
@[simp] theorem getQueue_setSrc (k : Nat) (v : SrcState) (s : State) (j : Nat) : getQueue (setSrc k v s) j = getQueue s j := rfl
@[simp] theorem getStack_setSrc (k : Nat) (v : SrcState) (s : State) (j : Nat) : getStack (setSrc k v s) j = getStack s j := rfl
@[simp] theorem obj_emit (o : Out) (s : State) (j : Nat) : obj (emit o s) j = obj s j := rfl
@[simp] theorem getSeq_emit (o : Out) (s : State) (j : Nat) : getSeq (emit o s) j = getSeq s j := rfl
@[simp] theorem getCl_emit (o : Out) (s : State) (j : Nat) : getCl (emit o s) j = getCl s j := rfl
@[simp] theorem getPort_emit (o : Out) (s : State) (j : Nat) : getPort (emit o s) j = getPort s j := rfl
@[simp] theorem getQueue_emit (o : Out) (s : State) (j : Nat) : getQueue (emit o s) j = getQueue s j := rfl
@[simp] theorem getStack_emit (o : Out) (s : State) (j : Nat) : getStack (emit o s) j = getStack s j := rfl
@[simp] theorem getSrc_emit (o : Out) (s : State) (j : Nat) : getSrc (emit o s) j = getSrc s j := rfl
@[simp] theorem obj_raise (d : Detection) (s : State) (j : Nat) : obj (raise d s) j = obj s j := rfl
@[simp] theorem getSeq_raise (d : Detection) (s : State) (j : Nat) : getSeq (raise d s) j = getSeq s j := rfl
@[simp] theorem getCl_raise (d : Detection) (s : State) (j : Nat) : getCl (raise d s) j = getCl s j := rfl
@[simp] theorem getPort_raise (d : Detection) (s : State) (j : Nat) : getPort (raise d s) j = getPort s j := rfl
@[simp] theorem getQueue_raise (d : Detection) (s : State) (j : Nat) : getQueue (raise d s) j = getQueue s j := rfl
@[simp] theorem getStack_raise (d : Detection) (s : State) (j : Nat) : getStack (raise d s) j = getStack s j := rfl
@[simp] theorem getSrc_raise (d : Detection) (s : State) (j : Nat) : getSrc (raise d s) j = getSrc s j := rfl
@[simp] theorem obj_flagStream (st : Nat) (f : StreamFlags → StreamFlags) (s : State) (j : Nat) : obj (flagStream st f s) j = obj s j := rfl
@[simp] theorem getSeq_flagStream (st : Nat) (f : StreamFlags → StreamFlags) (s : State) (j : Nat) : getSeq (flagStream st f s) j = getSeq s j := rfl
@[simp] theorem getCl_flagStream (st : Nat) (f : StreamFlags → StreamFlags) (s : State) (j : Nat) : getCl (flagStream st f s) j = getCl s j := rfl
@[simp] theorem getPort_flagStream (st : Nat) (f : StreamFlags → StreamFlags) (s : State) (j : Nat) : getPort (flagStream st f s) j = getPort s j := rfl
@[simp] theorem getQueue_flagStream (st : Nat) (f : StreamFlags → StreamFlags) (s : State) (j : Nat) : getQueue (flagStream st f s) j = getQueue s j := rfl
@[simp] theorem getStack_flagStream (st : Nat) (f : StreamFlags → StreamFlags) (s : State) (j : Nat) : getStack (flagStream st f s) j = getStack s j := rfl
@[simp] theorem getSrc_flagStream (st : Nat) (f : StreamFlags → StreamFlags) (s : State) (j : Nat) : getSrc (flagStream st f s) j = getSrc s j := rfl
@[simp] theorem getSeq_bump (k n : Nat) (s : State) (j : Nat) : getSeq (bump k n s) j = getSeq s j := rfl
@[simp] theorem getCl_bump (k n : Nat) (s : State) (j : Nat) : getCl (bump k n s) j = getCl s j := rfl
@[simp] theorem getPort_bump (k n : Nat) (s : State) (j : Nat) : getPort (bump k n s) j = getPort s j := rfl
@[simp] theorem getQueue_bump (k n : Nat) (s : State) (j : Nat) : getQueue (bump k n s) j = getQueue s j := rfl
@[simp] theorem getStack_bump (k n : Nat) (s : State) (j : Nat) : getStack (bump k n s) j = getStack s j := rfl
@[simp] theorem getSrc_bump (k n : Nat) (s : State) (j : Nat) : getSrc (bump k n s) j = getSrc s j := rfl
@[simp] theorem getSeq_bumpIf (b : Bool) (k n : Nat) (s : State) (j : Nat) : getSeq (bumpIf b k n s) j = getSeq s j := by cases b <;> rfl
@[simp] theorem getCl_bumpIf (b : Bool) (k n : Nat) (s : State) (j : Nat) : getCl (bumpIf b k n s) j = getCl s j := by cases b <;> rfl
@[simp] theorem getPort_bumpIf (b : Bool) (k n : Nat) (s : State) (j : Nat) : getPort (bumpIf b k n s) j = getPort s j := by cases b <;> rfl
@[simp] theorem getQueue_bumpIf (b : Bool) (k n : Nat) (s : State) (j : Nat) : getQueue (bumpIf b k n s) j = getQueue s j := by cases b <;> rfl
@[simp] theorem getStack_bumpIf (b : Bool) (k n : Nat) (s : State) (j : Nat) : getStack (bumpIf b k n s) j = getStack s j := by cases b <;> rfl
@[simp] theorem getSrc_bumpIf (b : Bool) (k n : Nat) (s : State) (j : Nat) : getSrc (bumpIf b k n s) j = getSrc s j := by cases b <;> rfl

/-! ## Iteration and stops -/

theorem forEach_cons {α : Type} (a : α) (l : List α) (f : α → State → State) (s : State) :
    forEach (a :: l) f s = forEach l f (f a s) := rfl

@[simp] theorem forEach_nil {α : Type} (f : α → State → State) (s : State) : forEach [] f s = s := rfl

/-- What every element's change keeps, the iteration keeps. -/
theorem forEach_keeps {α : Type} (R : State → State → Prop) (hr : ∀ s, R s s) (ht : ∀ a b c, R a b → R b c → R a c)
    (l : List α) (f : α → State → State) (h : ∀ a s, R s (f a s)) (s : State) : R s (forEach l f s) := by
  induction l generalizing s with
  | nil => exact hr s
  | cons a l ih => exact ht _ _ _ (h a s) (ih _)

theorem guarded_next {present : Bool} {s : State} {f : State → State} (hp : present = true) :
    guarded present s f = .next (f s) := by simp [guarded, hp]

theorem guarded_inv {present : Bool} {s t : State} {f : State → State} (h : guarded present s f = .next t) :
    present = true ∧ t = f s := by
  unfold guarded at h
  split at h
  · next hp => cases h; exact ⟨hp, rfl⟩
  · cases h

@[simp] theorem guarded_true (s : State) (f : State → State) : guarded true s f = .next (f s) := rfl

@[simp] theorem guarded_false (s : State) (f : State → State) : guarded false s f = .fault .unitAbsent := rfl

@[simp] theorem getIsland_setIsland_same (k : Nat) (v : Island) (s : State) : getIsland (setIsland k v s) k = v := by
  simp [getIsland, setIsland]

theorem getIsland_setIsland_other (k j : Nat) (v : Island) (s : State) (h : j ≠ k) : getIsland (setIsland k v s) j = getIsland s j :=
  tget_tset_other _ _ _ _ _ h

@[simp] theorem obj_setIsland (k : Nat) (v : Island) (s : State) (j : Nat) : obj (setIsland k v s) j = obj s j := rfl

@[simp] theorem whenS_true (s : State) (f : State → State) : whenS true s f = f s := rfl

@[simp] theorem whenS_false (s : State) (f : State → State) : whenS false s f = s := rfl

theorem whenS_pos {b : Bool} (h : b = true) (s : State) (f : State → State) : whenS b s f = f s := by simp [whenS, h]

end Sys2Proof.Machine
end

