-- ==== Sys2Proof/Tests/Slice0.lean ====
section
/-! SUPPORT. Tests: ill-formed commands, the spec's worked examples, and for every statement with hypotheses a state and operands
that meet them. -/

namespace Sys2Proof.Tests

open Sys2Proof.Machine

set_option Elab.async false

/-! ## Commands that stop -/

theorem test_wf_loop_zero : (Instr.loop 0 0 1).wf = false ∧ (Instr.loop 0 1 0).wf = false := by decide
theorem test_wf_xop_reg : (Instr.xop 0 0 false 5).wf = false := by decide
theorem test_wf_xpw_path : (Instr.xpw 0 0 0 0 0 0 3 false false 0).wf = false := by decide
theorem test_wf_xpa_dest : (Instr.xpa 0 0 0 0 0 0 0 3).wf = false := by decide
theorem test_wf_flick_mode : (Instr.flick 0 0 0 3 0 0 0 0).wf = false := by decide
theorem test_wf_topen_mode : (Instr.topen 0 0 0 3).wf = false := by decide
theorem test_stop_reserved (s : State) : exec (.xop 0 0 false 5) s = .fault .illFormed := rfl
theorem test_stop_absent : exec (.nop 49) State.reset = .fault .unitAbsent ∧ exec (.slotStart 63 0) State.reset = .fault .unitAbsent :=
  ⟨rfl, rfl⟩
theorem test_table_word_none : decodeTableWord 64 0x4207C00A80060005 = none := by decide

/-! ## The spec's worked examples -/

/-- Table 9.2's example words (09). -/
theorem test_walk_words : decodeWalk 5 0x4207C00A80060005 = some (.fetch 5 2 0x07C 0x00A80 0x0180 5)
    ∧ decodeWalk 5 0x1D30000000000000 = some (.gate 5 1 3 0) := by decide
/-- R226: an unlisted opcode, a reserved value, a bit that Table 9.2 does not assign, XSEL where no field is marked. -/
theorem test_walk_refused : decodeWalk 5 0x2800000000000000 = none ∧ decodeWalk 5 0x1400000000000002 = none
    ∧ decodeWalk 5 0x0400000000000001 = none ∧ decodeWalk 5 0x0500000000000000 = none := by decide

/-- Tables 2.7 and 2.8. -/
theorem test_header_bytes : toBytes 16 (headerBits { format := 0x10, poison := false, epoch := 0x2A7, tenant := 0x13, exp := -9, count := 224
                                                     density := 0xE4, zeroChan := false, rotated := true, rowTail := false
                                                     stochastic := false, transposable := false, predicted := false, prodInst := 3
                                                     prodUnit := 0x305, tensorSeq := 0x14C2E, scaleMant := 0 })
    = [0x10, 0xA7, 0x32, 0x71, 0x0F, 0x0E, 0xE4, 0x02, 0x03, 0x50, 0x30, 0x2E, 0x4C, 0x01, 0x00, 0x00] := by decide +kernel

/-- Table 2.9: V2 and V4, their check bytes at offsets 240 to 255. -/
theorem test_check_v2 : (blockBytes (encodeCheck (BitVec.ofNat 2048 (2 ^ (8 * 238))))).drop 240
    = [0xFF, 0, 0x0B, 0, 0x51, 0, 0x36, 0, 0xEF, 0, 0xAD, 0, 0xC8, 0, 0x18, 0] := by decide +kernel
theorem test_check_v4 : (blockBytes (encodeCheck (BitVec.ofNat 2048 (2 * 2 ^ (8 * 238))))).drop 240
    = [0xE3, 0, 0x16, 0, 0xA2, 0, 0x6C, 0, 0xC3, 0, 0x47, 0, 0x8D, 0, 0x30, 0] := by decide +kernel
/-- The note below Table 2.9: two flipped symbols of V2, one of each codeword's parts, are corrected and counted. -/
theorem test_check_decode : let v := encodeCheck (BitVec.ofNat 2048 (2 ^ (8 * 238)))
    (decodeBlock (v ^^^ BitVec.ofNat 2048 (2 ^ 800 + 5 * 2 ^ (8 * 244)))).fixed = 2 := by decide +kernel

/-- The WT5 group of Table 3.8: weights 0 to 4 and 60 to 63 decoded, no anomaly. -/
theorem test_wt5 : let g := decWt5 64 64 ([0x9A] ++ List.replicate 11 0 ++ [0x42, 0xB4])
    g.vals.take 5 = [1, 0, -1, -1, 1] ∧ g.vals.drop 60 = [0, 1, 1, -1] ∧ g.code = false ∧ g.stray = false := by decide +kernel
theorem test_wt5_128 : nth 0 (decWt5 128 128 (List.replicate 25 0 ++ [0x09, 0x71])).vals 127 = 1 := by decide +kernel
/-- The WS24 group of Table 3.8; code 0x2B places +1 at 1 and -1 at 3 (03). -/
theorem test_ws24 : (decWs24 false 64 ([0xAB, 0x10, 0x03] ++ List.replicate 9 0 ++ [0x5D])).vals.take 12
      = [0, 1, 0, -1, -1, 0, 0, 0, 0, 0, 1, 1] ∧ quadOf 0x2B = [0, 1, 0, -1] ∧ quadOf 0x36 = [0, 0, 0, 0] := by decide +kernel
/-- The WB8 group of Table 3.8. -/
theorem test_wb8 : let v := (decWb 8 64 [0x08, 0x04, 0, 0, 0, 0, 0, 0x80, 0x06, 0x9C]).vals
    nth 0 v 3 = 1 ∧ nth 0 v 10 = -1 ∧ nth 0 v 63 = -1 ∧ (v.filter (· != 0)).length = 3 := by decide +kernel
/-- The AI8, AS24 and CX32 groups of Table 3.8. -/
theorem test_ai8 : (decAi8 32 ([0x05, 0xFD, 0x64, 0x81] ++ List.replicate 28 0)).vals.take 5 = [5, -3, 100, -127, 0]
    ∧ (decAi8 32 [0x80]).vals.take 1 = [-127] ∧ (decAi8 32 [0x80]).intMin = true := by decide +kernel
theorem test_as24 : (decAs24 32 ([0x01, 0x01, 0x00, 0x0C, 0xFB, 0, 0, 7, 0xA6] ++ List.replicate 10 0)).vals.take 12
    = [12, 0, -5, 0, 0, 0, 0, 0, 0, 7, 0, -90] := by decide +kernel
theorem test_cx32 : (decCx 56 ([0xC0, 0xBD, 0xF0, 0xFF, 0x2C, 1, 0, 0] ++ List.replicate 216 0)).vals.take 3 = [-1000000, 300, 0] := by
  decide +kernel
/-- The AK8 group of Table 3.8. -/
theorem test_ak8 : let v := (decAk 8 false 64 [0x42, 0xF2, 0x50, 0x61, 0x2A, 0xFF, 0x28, 0xEF, 0x03, 0xFF, 0x58, 0xC4, 0x05, 0x02]).vals
    [2, 9, 15, 20, 33, 41, 50, 63].map (nth 0 v) = [40, -17, 3, -1, 88, -60, 5, 2] ∧ (v.filter (· != 0)).length = 8 := by decide +kernel
/-- The rotated AI4 block of 04: the pattern 1, -9, 1, 19. -/
theorem test_ai4 : (decAi4 64 ([0xE3, 0x79] ++ List.replicate 30 0)).vals = (List.replicate 16 [1, -9, 1, 19]).flatten := by decide +kernel

/-- The group-scale step of 04: MANT 0xD9, E 14, entry 0xD938; the floor entry 0x8082; the per-token step 246, -4. -/
theorem test_scale_step : stepFor { m := 3, x := 0 } 72 127 (-20) (-32) 31 = { mant := 217, exp := 14, low := false, high := false }
    ∧ entryWord 0xD9 14 false false = 0xD938 ∧ entryWord 0x80 (-32) true false = 0x8082 := by decide +kernel
/-- Table 4.7, inputs in units of 2^-14. -/
theorem test_quantise : (quantise 5425 (-14) 217 (-13) 127 none) = (12, false) ∧ (quantise (-5859) (-14) 217 (-13) 127 none) = (-14, false)
    ∧ (quantise (-217) (-14) 217 (-13) 127 none) = (0, false) ∧ (quantise 55335 (-14) 217 (-13) 127 none) = (127, true) := by decide +kernel

/-- LANE_STATE of 05. -/
theorem test_lane_state :
    laneStateWord { Cluster.idle with stretched := true, spareFor := some 5, lanesFenced := 0x820 } = 0x006A0820 := by decide
/-- The matching window of 06: 5 lookups, the compacted slots 2 and 5. -/
theorem test_match_window : let e := as24Entries false 32 ([0x01, 0x01, 0x00, 0x0C, 0xFB, 0, 0, 7, 0xA6] ++ List.replicate 10 0)
    let w := matchWindow ((decWs24 false 64 ([0xAB, 0x10, 0x03] ++ List.replicate 9 0 ++ [0x5D])).vals.take 32)
      (some { entries := e, scale := zeroScale, poison := false })
    e.map (·.pos) = [0, 2, 4, 5, 9, 11, 12, 13, 16, 17, 20, 21, 24, 25, 28, 29] ∧ w.1.take 6 = [0, 0, -1, 0, 0, 1] ∧ w.2.2 = 5
    ∧ isum (List.zipWith (· * ·) w.1 w.2.1) = -90 := by decide +kernel
/-- The pruning examples of 06: mask 0 by the tie rule; the kept positions of the two quads. -/
theorem test_masks : chooseMask [9, 8, 1, 1, 9, 8, 1, 1, 9, 1, 8, 1, 1, 1, 1, 1] = ([0, 0, 5, 5], true) ∧ tmasks.length = 90
    ∧ nth [] tmasks 60 = [4, 0, 1, 5] ∧ keepLargest 2 [5, 5, 3, 5] = [0, 1] ∧ keepLargest 2 [0, 0, 2, 0] = [0, 2] := by decide +kernel
/-- The flick block of 07, and its sample neurons. -/
theorem test_flick_block : let b := convertBlock ([48, -40, 20, 0, 36, -4, 0, -44] ++ List.replicate 24 0)
    let t := [-1, 1, 0, 1, -1, 1, 0, 1] ++ List.replicate 14 1 ++ List.replicate 10 0
    b.l = 32 ∧ b.codes.take 8 = [1, -1, 1, 0, 1, 0, 0, -1] ∧ b.e = 16 ∧ b.r = 56 ∧ blockEstimate b t = -128 ∧ blockBound b t = 56
    ∧ isSample 17 = false ∧ isSample 34 = true := by decide +kernel
/-- Table 8.3: the accumulator in both orders. -/
theorem test_accumulate : let u (a : Word) (v : Int) : Word := accUpdate a v false false
    u (u (u 0 786432000000000) 620490) (-786432000000000) = 0x977CA ∧ u (u (u 0 620490) (-786432000000000)) 786432000000000 = 0x977CA := by
  decide +kernel
/-- Table 9.12's stretched ticks. -/
theorem test_stretch : [1, 1344, 2040, 2042, 2054, 2066, 2078, 3566, 15000].map stretchTick
    = [2, 1434, 2176, 2179, 2191, 2204, 2217, 3804, 16000] := by decide
/-- The region entry, the interleave and the request word of 10 and 20. -/
theorem test_region : let e := 0xA3000980200000400001000000000000
    rgValid e = true ∧ rgTchk e = true ∧ rgPriv e = false ∧ rgIlv e = 3 ∧ rgTenant e = 0x13 ∧ rgBase e = 0x4000000000
    ∧ rgBase e + rgSize e = 0x4800000000 ∧ interleaveOf e 0x4000123500 = (1, 0x20048D00) ∧ requestWord e 1 0x20048D00 0 = 0x1000000020048D00 := by
  decide +kernel
/-- Table 15.5 and the contained record of Table 15.11's example: bytes 12 and 13 are 0x5A and 0x03. -/
theorem test_escalation : escalate { SrcState.clear with corr := true } .corrected = (.contained, true)
    ∧ escalate { SrcState.clear with cont := true } .corrected = (.corrected, false)
    ∧ escalate { SrcState.clear with corr := true, cont := true } .corrected = (.fatal, true)
    ∧ ((toBytes 16 (recordOf { source := 0x035, cls := .contained, access := 3, syndrome := 9, op := 0x11 } 1020000 0x32 2 true false)).drop 10).take 4
      = [0x30, 0x11, 0x5A, 0x03] := by decide +kernel
/-- The identifiers of the twin probe (18). -/
theorem test_probe_ids : canId 2 0x23 0x22 0x105 = 0x048D1105 ∧ canId 3 0x22 0x23 0x105 = 0x06891905 := by decide
/-- R272: the check value of CRC-32C. -/
theorem test_crc : crc32c [0x31, 0x32, 0x33, 0x34, 0x35, 0x36, 0x37, 0x38, 0x39] = 0xE3069283 := by decide +kernel
/-- The published digest of the three bytes "abc" (log 7). -/
theorem test_sha : sha384 [0x61, 0x62, 0x63] = [0xCB, 0x00, 0x75, 0x3F, 0x45, 0xA3, 0x5E, 0x8B, 0xB5, 0xA0, 0x3D, 0x69, 0x9A, 0xC6, 0x50, 0x07,
    0x27, 0x2C, 0x32, 0xAB, 0x0E, 0xDE, 0xD1, 0x63, 0x1A, 0x8B, 0x60, 0x5A, 0x43, 0xFF, 0x5B, 0xED, 0x80, 0x86, 0x07, 0x2B, 0xA1, 0xE7, 0xCC,
    0x23, 0x58, 0xBA, 0xEC, 0xA1, 0x34, 0xC8, 0x25, 0xA7] := by decide +kernel

/-! ## States for the tests -/

/-- An instance that has started, alone, with authority. -/
def wReady : State :=
  { State.reset with
    boot := { State.reset.boot with phase := .ready, nodeId := 0x20, ident := { Ident.empty with bootCount := 1 } }
    twin := { State.reset.twin with role := .sole, auth := true } }

/-- An image with these slots and words for sequencer q. -/
def wImage (q : Nat) (slots : List (BitVec 128)) (prog : List Word) : Image :=
  { base := 0, length := 256, header := 0, tensors := [], tiles := [], flicks := [], transfers := [], stretch := []
    seqs := List.replicate q { slots := [], prog := [] } ++ [{ slots := slots, prog := prog }], digest := 0 }

/-- Sequencer q runs an image's first slot, whose one word is the instruction. -/
def wWalk (q : Nat) (i : Instr) (f : Image → Image) : State :=
  { wReady with
    plan := { wReady.plan with mode := .running, active := some (f (wImage q [0] ((encodeWalk i).toList))), map := List.range 32 }
    seqs := [(q, { Seq.idle with running := true, length := 15 })] }

/-- Sequencers none of which is listed with a transfer: none has one. -/
theorem no_transfer (l : Tab Seq) (h : ∀ e ∈ l, e.2.transfer = none) (q : Nat) : (tget .idle l q).transfer = none := by
  induction l with
  | nil => rfl
  | cons e r ih =>
    simp only [List.mem_cons, forall_eq_or_imp] at h
    simp only [tget]
    split
    · exact h.1
    · exact ih h.2

/-! ## Witnesses: walk instructions -/

/-- A READ that waits for an earlier request. -/
def wBuffered : Buffered := { service := 2, req := { dst := 0x20, src := 1, tag := 0, payload := [], waits := true }, presence := false }

theorem witness_step_idle : State.reset.pending = [] ∧ State.reset.boot.phase = .off ∧ wReady.pending = [] ∧ wReady.boot.phase ≠ .off
    ∧ wReady.dict.canBuf = [] ∧ ({ wReady.dict with canBuf := [wBuffered] } : Dict).canBuf = wBuffered :: []
    ∧ (wReady.clock.tick + 1) % 3000 ≠ 0 ∧ wReady.clock.sub + 1 ≠ 30 ∧ ({ wReady.clock with sub := 29 } : Clock).sub + 1 = 30 := by decide
/-- At rest nothing of the clusters is due. -/
theorem witness_idle_due : NothingDue wReady ∧ LanesDone wReady ∧ Tab.wf .idle wReady.seqs = true :=
  ⟨⟨fun _ => ⟨rfl, fun _ h => nomatch h⟩, fun _ => rfl⟩, fun _ => ⟨rfl, fun _ h => nomatch h⟩, rfl⟩
theorem witness_stops : (Instr.xop 0 0 false 1).reservedFree = false ∧ (Instr.nop 8).reservedFree = true
    ∧ unitsOk { wReady.hw with variant := .t8 } (.nop 8) = false ∧ unitsOk { wReady.hw with variant := .t8 } (.laneRemap 8) = false
    ∧ unitsOk { wReady.hw with variant := .t8 } (.linkUp 15) = false ∧ unitsOk wReady.hw (.supplyDroop 63 true 0) = false
    ∧ unitsOk wReady.hw (.queueRead 511 [] none) = false ∧ unitsOk wReady.hw (.nop 48) = true := by decide +kernel
theorem witness_round_trip : (Instr.loop 0 65535 1).reservedFree = true ∧ encodeWalk (.loop 0 65535 1) = some 0x14000000FFFF0001 := by decide
theorem witness_control : Issues (.nop 0) 0 (wWalk 0 (.nop 0) id) ∧ Issues (.waitt 48 0xFFFFFFF) 48 (wWalk 48 (.waitt 48 0xFFFFFFF) id)
    ∧ Issues (.waitd 32 63 65535) 32 (wWalk 32 (.waitd 32 63 65535) id) ∧ Issues (.xop 0 3 true 1) 0 (wWalk 0 (.xop 0 3 true 1) id)
    ∧ Issues (.gate 31 1 15 8191) 31 (wWalk 31 (.gate 31 1 15 8191) id)
    ∧ Issues (.dmark 0 0 63 0) 0 (wWalk 0 (.dmark 0 0 63 0) id) := by unfold Issues; decide +kernel
theorem witness_loop_end : Issues (.loop 0 2 1) 0 (wWalk 0 (.loop 0 2 1) id) ∧ Issues (.endProg 0) 0 (wWalk 0 (.endProg 0) id) := by
  unfold Issues; decide +kernel
theorem witness_sig_step : Issues (.sig 0 63) 0 (wWalk 0 (.sig 0 63) id) ∧ (getSeq (wWalk 0 (.sig 0 63) id) 0).sigs = []
    ∧ Issues (.step 48) 48 (wWalk 48 (.step 48) id) := by unfold Issues; decide +kernel

/-- A tensor descriptor: base, length, kind, format, region. -/
def wTd (base len kind fmt rgn : Nat) : BitVec 256 :=
  BitVec.ofNat 256 (base * 2 ^ 208 + len * 2 ^ 188 + kind * 2 ^ 186 + fmt * 2 ^ 180 + rgn * 2 ^ 134)

/-- A valid region entry of 2 MiB at 2 MiB × b, with this FMT. -/
def wRegion (b fmt : Nat) : Nat := 2 ^ 127 + fmt * 2 ^ 111 + b * 2 ^ 76 + 2 ^ 56 + b * 2 ^ 40

/-- wWalk with tensor 0 containers of format 0x10 in region 0, tensor 1 raw in region 1, tensor 2 weights in region 0. -/
def wMem (q : Nat) (i : Instr) (f : Image → Image) : State :=
  let s := wWalk q i (fun im => f { im with tensors := [wTd 0 64 0 0x20 0, wTd 0x200000 2000 1 0 1, wTd 0 64 0 1 0] })
  setObj (key 0x3001 1) (wRegion 1 0x40) (setObj (key 0x3000 1) (wRegion 0 0) s)

/-- A released pass 3 whose mask skips neuron 0. -/
def wPass : FlickPass :=
  { uid := 1, pass := 3, fdesc := 0, mode := 2, nbase := 0, ncount := 8, rows := 1, thetaM := 0, thetaE := 0, skip := 1, released := true
    poisoned := false, residueFail := false, verify := [], evaluated := 0, rangeMarks := 0, ranges := [], busyTo := 0, waiting := false }

/-- Sequencer and cluster 0 with neuron 0 of pass 3 gated. -/
def wGated (i : Instr) : State :=
  setCl 0 { Cluster.idle with flickPasses := [(3, wPass)] } (modSeq 0 (fun q => { q with gate := some (3, 0) }) (wMem 0 i id))

theorem witness_fetch : Issues (.fetch 0 0 0 0 0 3) 0 (wGated (.fetch 0 0 0 0 0 3)) ∧ (gateOf (wGated (.fetch 0 0 0 0 0 3)) 0).skip = true
    ∧ Issues (.fetch 0 0 0 60 16383 3) 0 (wMem 0 (.fetch 0 0 0 60 16383 3) id) ∧ (gateOf (wMem 0 (.fetch 0 0 0 60 16383 3) id) 0).skip = false
    ∧ (altUse (wMem 0 (.fetch 0 0 0 60 16383 3) id) 0 60 4).2.2.1 = 4 := by unfold Issues; decide +kernel
/-- Of the clauses under which a permitted container is not withheld: the slot is a test slot's, or nothing withholds its class. -/
theorem witness_not_withheld : slotKind (2 ^ 70) = 1 ∧ withholdCause (wMem 0 (.fetch 0 0 0 60 16383 3) id) 0 0 = none := by decide +kernel
theorem witness_fetch_permitted : ∀ k, k < 4 → ∃ stk w,
    tensorAccess (wMem 0 (.fetch 0 0 0 60 16383 3) id) (tensorOf (wMem 0 (.fetch 0 0 0 60 16383 3) id) 0) (60 + k) (some 0) true false = .ok stk w
      ∧ (slotKind (slotBits (wMem 0 (.fetch 0 0 0 60 16383 3) id) 0) = 1
          ∨ rgDie (regionEntry (wMem 0 (.fetch 0 0 0 60 16383 3) id) (tdRgn (tensorOf (wMem 0 (.fetch 0 0 0 60 16383 3) id) 0))) = true
          ∨ withholdCause (wMem 0 (.fetch 0 0 0 60 16383 3) id) (slotClass (slotBits (wMem 0 (.fetch 0 0 0 60 16383 3) id) 0)) stk = none) := by
  intro k h
  match k, h with
  | 0, _ => exact ⟨_, _, rfl, .inr (.inr rfl)⟩
  | 1, _ => exact ⟨_, _, rfl, .inr (.inr rfl)⟩
  | 2, _ => exact ⟨_, _, rfl, .inr (.inr rfl)⟩
  | 3, _ => exact ⟨_, _, rfl, .inr (.inr rfl)⟩

theorem witness_expansions : Issues (.xpw 0 0 2 0 3 1 2 true true 4095) 0 (wGated (.xpw 0 0 2 0 3 1 2 true true 4095))
    ∧ (gateOf (wGated (.xpw 0 0 2 0 3 1 2 true true 4095)) 0).skip = true ∧ gateVerify (wGated (.xpw 0 0 2 0 3 1 2 true true 4095)) 0 = none
    ∧ laneNeeds (wGated (.xpw 0 0 2 0 3 1 2 true true 4095)) 0 0 4 0x02 0 = []
    ∧ Issues (.xpa 0 0 0 16383 1 1 15 2) 0 (wGated (.xpa 0 0 0 16383 1 1 15 2))
    ∧ (gateOf (wGated (.xpa 0 0 0 16383 1 1 15 2)) 0).skip = true ∧ gateVerify (wGated (.xpa 0 0 0 16383 1 1 15 2)) 0 = none
    ∧ neededNow (wGated (.xpa 0 0 0 16383 1 1 15 2)) (laneNeeds (wGated (.xpa 0 0 0 16383 1 1 15 2)) 0 16383 2 0x10 0) = false
    ∧ tileAwaited (getCl (wGated (.xpw 0 0 2 0 3 1 2 true true 4095)) 0) 1 = false
    ∧ entriesNeeded (getCl (wGated (.xpa 0 0 0 16383 1 1 15 2)) 0) (tensorOf (wGated (.xpa 0 0 0 16383 1 1 15 2)) 0) 16383 2 = false := by
  unfold Issues; decide +kernel

/-- A run of three containers whose last one has still to come: none is needed yet, and the work waits. -/
theorem witness_lane_waits : let i : Instr := .xpw 0 0 2 0 2 1 0 false false 0
    let s := setCl 0 { Cluster.idle with reads := [{ use := .pad 2, addr := 0, priv := false, by_ := { q := 0, op := 0 }, stream := 0, tenant := 0 }] } (wMem 0 i id)
    Issues i 0 s ∧ (gateOf s 0).skip = false ∧ laneNeeds s 0 0 3 (tdFormat (tensorOf s 2)) 0 ≠ []
    ∧ neededNow s (laneNeeds s 0 0 3 (tdFormat (tensorOf s 2)) 0) = false ∧ tileAwaited (getCl s 0) 1 = false := by unfold Issues; decide +kernel

/-- A flick descriptor: four neurons from 100 on, GDESC 2, ADESC 0, one container each. -/
def wFlick : BitVec 128 := BitVec.ofNat 128 (100 * 2 ^ 68 + 4 * 2 ^ 54 + 2 * 2 ^ 42 + 0 * 2 ^ 30 + 1 * 2 ^ 24 + 1 * 2 ^ 19)

theorem witness_flick_pass : let i : Instr := .flick 0 0 3 2 0 0 8 1
    let s := wMem 0 i (fun im => { im with flicks := [wFlick] })
    Issues i 0 s ∧ neededNow s (flickNeeds s 0 (flickOf s 0) 0 8 2) = false
    ∧ entriesNeeded (getCl s 0) (tensorOf s (fdAdesc (flickOf s 0))) 0 (2 * fdAcnt (flickOf s 0)) = false
    ∧ fmtOf (tdFormat (tensorOf s (fdAdesc (flickOf s 0)))) ≠ none ∧ fmtOf (tdFormat (tensorOf s (fdGdesc (flickOf s 0)))) ≠ none := by
  unfold Issues; decide +kernel
theorem witness_mask_release :
    pendingPass { Cluster.idle with flickPasses := [(16, { wPass with released := false })] } 3 = some (16, { wPass with released := false })
    ∧ wPass.waiting = false ∧ ({ wPass with waiting := true } : FlickPass).waiting = true := by
  decide
theorem witness_flick_verify :
    releasedPass { Cluster.idle with flickPasses := [(3, { wPass with verify := [0] })] } 3 = some { wPass with verify := [0] }
    ∧ ({ wPass with verify := [0] } : FlickPass).verify.contains 0 = true
    ∧ verifyMiss { wPass with verify := [0] } { pass := 3, neuron := 0, sums := [] } = false := by decide +kernel

/-- A tile descriptor of 2 rows and 128 columns at 0, X_T 0, FAR tensor 1. -/
def wTile : BitVec 128 := BitVec.ofNat 128 (1 * 2 ^ 104 + 127 * 2 ^ 92 + 1 * 2 ^ 31)

/-- An open tile of number 5 in entry 0. -/
def wOpenTile : Tile :=
  { uid := 1, num := 5, named := true, base := 0, rows := 2, cols := 128, stride := 128, xt := 0, stat := 0, far := none, keep := false
    touched := 0, poison := false, sat := false, closed := none, ready := false, ranges := [], flickPasses := [], predicted := false
    stream := 0, tenant := 0, counts := [], fresh := 0, govA := none, aFormat := 0, toKeys := false,
    sparse := none, started := false, drained := [], made := [], toPack := [], drainDesc := 0 }

/-- wMem with that tile open and the tile descriptor in the table. -/
def wTiled (i : Instr) : State :=
  setCl 0 { Cluster.idle with tiles := [(0, wOpenTile)], nextTile := 1 } (wMem 0 i (fun im => { im with tiles := [wTile] }))

theorem witness_topen : let i : Instr := .topen 0 5 0 2
    let s := wMem 0 i (fun im => { im with tiles := [wTile] })
    Issues i 0 s ∧ openTile (getCl s 0) 5 = none ∧ freeEntry (getCl s 0) = some 0
    ∧ (getCl s 0).tiles.any (fun e => tilesOverlap (tileNow s 0 5 0 2) e.2) = false ∧ (getCl s 0).lane = [] := by unfold Issues; decide +kernel
/-- A TOPEN over the open number 5; one of another number that overlaps it and waits, at first and when it waits already. -/
theorem witness_topen_again : let i : Instr := .topen 0 5 0 0
    let j : Instr := .topen 0 6 0 0
    Issues i 0 (wTiled i) ∧ openTile (getCl (wTiled i) 0) 5 = some (0, wOpenTile) ∧ (getSeq (wTiled i) 0).waitUnit = none
    ∧ freeEntry (withoutOpen (getCl (wTiled i) 0) 5) = some 0
    ∧ (withoutOpen (getCl (wTiled i) 0) 5).tiles.any (fun e => tilesOverlap (tileNow (wTiled i) 0 5 0 0) e.2) = false
    ∧ Issues j 0 (wTiled j) ∧ openTile (getCl (wTiled j) 0) 6 = none ∧ mustWait (getCl (wTiled j) 0) (tileNow (wTiled j) 0 6 0 0) = true
    ∧ (let s := modSeq 0 (fun q => { q with waitUnit := some (0, true) }) (wTiled j)
       Issues j 0 s ∧ (getSeq s 0).waitUnit = some (0, true) ∧ openTile (getCl s 0) 6 = none
       ∧ mustWait (getCl s 0) (tileNow s 0 6 0 0) = true ∧ hazardWaits s 0 = true) := by unfold Issues; decide +kernel
theorem witness_pack : let i : Instr := .pack 0 0 5 0 4 true true true true 15
    Issues i 0 (wTiled i) ∧ openTile (getCl (wTiled i) 0) 5 = some (0, wOpenTile)
    ∧ Issues i 0 (wMem 0 i id) ∧ openTile (getCl (wMem 0 i id) 0) 5 = none ∧ tileAwaited (getCl (wTiled i) 0) 5 = false
    ∧ entriesAwaited (getCl (wTiled i) 0) (tensorOf (wTiled i) 0) = false := by unfold Issues; decide +kernel

/-- Tensor 3: the statistics of 128 vector components and four scale entries, that an area holds in one block. -/
def wArea (i : Instr) : State :=
  setCl 0 { Cluster.idle with tiles := [(0, wOpenTile)], nextTile := 1 } (wMem 0 i (fun im =>
    { im with tensors := im.tensors ++ [BitVec.ofNat 256 (64 * 2 ^ 188 + 0x20 * 2 ^ 180 + 4 * 2 ^ 103)], tiles := [wTile] }))

theorem witness_areas_written : Issues (.svec 0 3 1) 0 (wArea (.svec 0 3 1)) ∧ Issues (.scsave 0 3 1) 0 (wArea (.scsave 0 3 1))
    ∧ Issues (.save 0 5 1) 0 (wArea (.save 0 5 1)) ∧ openTile (getCl (wArea (.save 0 5 1)) 0) 5 = some (0, wOpenTile)
    ∧ saveWaits (getCl (wArea (.save 0 5 1)) 0) 5 = false ∧ tileAwaited (getCl (wArea (.save 0 5 1)) 0) 5 = false
    ∧ entriesAwaited (getCl (wArea (.svec 0 3 1)) 0) (tensorOf (wArea (.svec 0 3 1)) 3) = false ∧ ceilDiv (tdNent (tensorOf (wArea (.svec 0 3 1)) 3)) 128 = 1 ∧ ceilDiv (tdNent (tensorOf (wArea (.scsave 0 3 1)) 3)) 4 = 1
    ∧ 1 + ceilDiv (wOpenTile.rows * wOpenTile.cols) 32 = 9 := by unfold Issues; decide +kernel
theorem witness_area_write_permitted : ∀ i ∈ [Instr.svec 0 3 1, .scsave 0 3 1, .save 0 5 1], ∀ k, k < 9 → ∃ stk w,
    tensorAccess (wArea i) (tensorOf (wArea i) 1) k (some (curTenant (wArea i) 0)) false true = .ok stk w := by
  have h : ∀ i ∈ [Instr.svec 0 3 1, .scsave 0 3 1, .save 0 5 1], ∀ k ∈ List.range 9,
      (match tensorAccess (wArea i) (tensorOf (wArea i) 1) k (some (curTenant (wArea i) 0)) false true with | .ok _ _ => true | _ => false) = true := by
    decide +kernel
  intro i hi k hk
  have g := h i hi k (List.mem_range.2 hk)
  split at g
  · exact ⟨_, _, by assumption⟩
  · cases g
theorem witness_areas_read : let i : Instr := .restore 0 5 1 0
    let s := wMem 0 i (fun im => { im with tiles := [wTile] })
    Issues i 0 s ∧ freeEntry (getCl s 0) = some 0 ∧ (getCl s 0).tiles.any (fun e => tilesOverlap (tileNow s 0 5 0 1) e.2) = false
    ∧ 1 + ceilDiv (tlRows (tileOf s 0) * tlCols (tileOf s 0)) 32 = 9
    ∧ Issues (.screst 0 3 1) 0 (wArea (.screst 0 3 1)) := by unfold Issues; decide +kernel
theorem witness_area_read_permitted : ∀ i ∈ [Instr.restore 0 5 1 0, .screst 0 3 1], ∀ k, k < 9 → ∃ stk w,
    tensorAccess (wArea i) (tensorOf (wArea i) 1) k (some (slotTenant (slotBits (wArea i) 0))) true true = .ok stk w := by
  have h : ∀ i ∈ [Instr.restore 0 5 1 0, .screst 0 3 1], ∀ k ∈ List.range 9,
      (match tensorAccess (wArea i) (tensorOf (wArea i) 1) k (some (slotTenant (slotBits (wArea i) 0))) true true with
       | .ok _ _ => true | _ => false) = true := by decide +kernel
  intro i hi k hk
  have g := h i hi k (List.mem_range.2 hk)
  split at g
  · exact ⟨_, _, by assumption⟩
  · cases g

/-- A transfer descriptor: kind, port, cluster, tensor, peer, channel. -/
def wXd (kind port cluster desc peer channel : Nat) : BitVec 256 :=
  BitVec.ofNat 256 (kind * 2 ^ 252 + port * 2 ^ 248 + cluster * 2 ^ 243 + desc * 2 ^ 231 + peer * 2 ^ 219 + channel * 2 ^ 209)

/-- wMem with a transfer descriptor, port 1 up. -/
def wLinked (q : Nat) (i : Instr) (x : BitVec 256) (port : Port) : State :=
  setPort 1 port (wMem q i (fun im => { im with transfers := [x] }))

/-- An UP port. -/
def wUp : Port := { Port.down with layerUp := true, st := 2, partnerSeen := true }

/-- A transfer of port 1 in progress, 2 of 5 containers done. -/
def wTransfer : Transfer :=
  { kind := 2, port := 1, cluster := 0, desc := 0, peer := 7, channel := 9, tenant := 0, cexp := 0, slot := 0, off := 0, total := 5
    done := 2, dead := false, late := false, op := 0, stream := 4 }

theorem witness_transfers : ∀ i ∈ [Instr.send 33 0 0 4 0 0, .recv 33 0 0 4 0 0, .chorus 33 0 0 4 0 0],
    Issues i 33 (wLinked 33 i (wXd 2 1 0 0 7 9) wUp) ∧ (getPort (wLinked 33 i (wXd 2 1 0 0 7 9) wUp) 1).st = 2
    ∧ xdPort (transferOf (wLinked 33 i (wXd 2 1 0 0 7 9) wUp) 0) = 1
    ∧ Issues i 33 (wLinked 33 i (wXd 5 1 0 0 7 9) .down) ∧ (getPort (wLinked 33 i (wXd 5 1 0 0 7 9) .down) 1).st ≠ 2 := by
  unfold Issues; decide +kernel
/-- A SEND of 32 pad slots, a CHORUS of five waiting outputs, a RECV of one waiting container. -/
theorem witness_transfers_move :
    let send : Instr := .send 33 0 0 31 0 0
    let a := wLinked 33 send (wXd 0 1 0 0 7 9) wUp
    let chorus : Instr := .chorus 33 0 0 4 0 0
    let o : ChItem := { id := 0, block := 0x20, verdict := .confirmed, makers := [], ranges := [], hop := 3, sat := false, stream := 0 }
    let b := wLinked 33 chorus (wXd 5 1 0 0 7 9) { wUp with chOut := List.replicate 5 o, chPaired := 5 }
    let recv : Instr := .recv 33 0 0 0 0 0
    let e : RxItem := { block := 1, channel := 9, seq := 0, verdict := .confirmed, hop := 0, sat := false, dropped := false, counted := false }
    let c := wLinked 33 recv (wXd 2 1 0 0 7 9) { wUp with buf := [e] }
    (Issues send 33 a ∧ (getPort a 1).st = 2 ∧ a.plan.testSlot = false ∧ (getPort a 1).window.length + 32 ≤ 64 ∧ xdKind (transferOf a 0) = 0
      ∧ (∀ k ∈ List.range 32, slotAwaited (getCl a (physicalOf a (xdCluster (transferOf a 0)))) (runSlot 0 k) = false))
    ∧ (Issues chorus 33 b ∧ xdKind (transferOf b 0) = 5 ∧ xdPeer (transferOf b 0) ≠ instanceId b ∧ 5 ≤ (getPort b 1).chOut.length ∧ 5 ≤ (getPort b 1).chPaired
      ∧ b.plan.testSlot = false)
    ∧ (Issues recv 33 c ∧ xdKind (transferOf c 0) = 2 ∧ rxFirst c (xdChannel (transferOf c 0)) = some (1, e) ∧ e.dropped = false
      ∧ queueFull c (0x40 + physicalOf c (xdCluster (transferOf c 0))) = false ∧ c.plan.testSlot = false) := by
  unfold Issues; decide +kernel
theorem witness_transfers_idle (i : Instr) (x : BitVec 256) (p : Port) : ∀ j, (getSeq (wLinked 33 i x p) j).transfer = none :=
  no_transfer _ (by simp [wLinked, setPort, wMem, wWalk, setObj, Seq.idle])
theorem witness_ceiling : let s := setSeq 33 { Seq.idle with transfer := some wTransfer } wReady
    (getSeq s 33).transfer = some wTransfer ∧ (∀ c ∈ s.plan.map, c < 32) ∧ wTransfer.done < wTransfer.total := by decide +kernel

/-! ## Witnesses: the plan -/

/-- Node 1 asks. -/
def wReq : Requester := .can 1

theorem witness_path_free : PathFree wReq wReady ∧ PathFree (.win true) wReady := by
  unfold PathFree NothingAhead; exact ⟨by decide, by decide⟩
theorem witness_write_served : WriteServed wReq (planKey 2) wReady ∧ wReady.plan.stage ≠ .loading ∧ wReady.boot.phase = .ready
    ∧ framesRun (wWalk 0 (.nop 0) id) = true ∧ WriteServed wReq (planKey 2) (wWalk 0 (.nop 0) id) := by
  unfold WriteServed PathFree NothingAhead; exact ⟨by decide, by decide, by decide, by decide⟩
theorem witness_plan_staged : let s := { wReady with plan := { wReady.plan with stage := .staged, staged := some (wImage 0 [] []) } }
    WriteServed wReq (planKey 2) s ∧ s.plan.stage ≠ .loading ∧ s.plan.staged = some (wImage 0 [] []) := by
  unfold WriteServed PathFree NothingAhead; exact ⟨by decide, by decide, rfl⟩

/-- The smallest image that loads: one cluster, no tables, one test slot of 100 ms in a frame of 200 ms, ring and image in region 0. -/
def wHeader : Nat :=
  0x4B4C4157 + 1 * 2 ^ 32 + 1 * 2 ^ 48 + 6000000 * 2 ^ 64 + 0x1234 * 2 ^ 96 + (256 + 0 * 2 ^ 32) * 2 ^ 192
  + (256 * 2 ^ 32 + 256 * 2 ^ 64 + 256 * 2 ^ 96 + 256 * 2 ^ 128 + 1280 * 2 ^ 160) * 2 ^ 192 + 0x100000 * 2 ^ 384 + 4 * 2 ^ 448

/-- Its blocks: header, directory (sequencer 48: one slot at 1536), stretch groups, slot table. -/
def wBlocks : List Block :=
  [BitVec.ofNat 2048 wHeader, 0, 0, 0, BitVec.ofNat 2048 (1536 + 1 * 2 ^ 32), 0,
   BitVec.ofNat 2048 (3000000 * 2 ^ 72 + 1 * 2 ^ 70 + 3 * 2 ^ 68 + 0x1FFF * 2 ^ 37)]

/-- A plan load in progress at address 0, in a privileged region of FMT 0x40. -/
def wLoading : State :=
  setObj (key 0x3000 1) (2 ^ 126 + wRegion 0 0x40) { wReady with plan := { wReady.plan with stage := .loading } }

/-- A retired page at address 0. -/
def wRetired : State := setObj (retKey 0) (2 ^ 63) wLoading

theorem witness_load_passes : wLoading.plan.stage = .loading ∧ wLoading.faults.fatal = false
    ∧ firstRefused wLoading 0 (imageReads (imageNum wBlocks)) = none ∧ imageReads (imageNum wBlocks) = 7
    ∧ loadFail wLoading 0 (imageNum wBlocks) (parseImage 0 (imageNum wBlocks)) = none := by decide +kernel
theorem witness_load_fails : loadFail wLoading 0 (imageNum []) (parseImage 0 (imageNum [])) = some (1, locItem 0xF0 0)
    ∧ firstRefused wLoading 0 (imageReads (imageNum [])) = none ∧ obj wLoading (planKey 1) = 0
    ∧ (6 < imageReads (imageNum wBlocks) ∧ ¬ imageReads (imageNum wBlocks) ≤ 6)
    ∧ firstRefused wReady 0 (imageReads (imageNum wBlocks)) = some (0, .refused)
    ∧ firstRefused wRetired 0 (imageReads (imageNum wBlocks)) = some (0, .retired) := by decide +kernel
/-- An image with its MAGIC wrong is refused at offset 0 of the header; one with a slot of LENGTH not a multiple of 15 under 0x07. -/
theorem test_load_refused :
    loadFail wLoading 0 (imageNum wBlocks + 1) (parseImage 0 (imageNum wBlocks + 1)) = some (1, 0xF0000000)
    ∧ (loadFail wLoading 0 (imageNum (wBlocks.set 6 (BitVec.ofNat 2048 (3000001 * 2 ^ 72 + 1 * 2 ^ 70 + 3 * 2 ^ 68 + 0x1FFF * 2 ^ 37))))
        (parseImage 0 (imageNum (wBlocks.set 6 (BitVec.ofNat 2048 (3000001 * 2 ^ 72 + 1 * 2 ^ 70 + 3 * 2 ^ 68 + 0x1FFF * 2 ^ 37)))))) =
      some (7, 0x30800000) := by decide +kernel

/-- An armed plan. -/
def wArmed : State :=
  { wReady with plan := { wReady.plan with mode := .armed, stage := .staged, staged := some (parseImage 0 (imageNum wBlocks)) } }

theorem witness_armed : wArmed.plan.mode = .armed ∧ wArmed.faults.fatal = false
    ∧ wArmed.plan.staged = some (parseImage 0 (imageNum wBlocks)) ∧ wArmed.faults.failing = [] := by
  exact ⟨rfl, rfl, rfl, rfl⟩
theorem witness_armed_checks :
    activationFail { wArmed with plan := { wArmed.plan with mode := .none } } (parseImage 0 (imageNum wBlocks)) = none
    ∧ activationFail { wArmed with
        plan := { wArmed.plan with mode := .none }
        clusters := (List.range 32).map (fun c => (c, { Cluster.idle with fenced := true })) } (parseImage 0 (imageNum wBlocks))
      = some (0x0E, 0xF0000006) := by decide +kernel
theorem witness_frames : let s := wWalk 0 (.nop 0) id
    framesRun s = true ∧ s.faults.fatal = false ∧ s.twin.mirrorDone = false ∧ s.twin.shared = [] ∧ s.plan.switchPending = false
    ∧ s.plan.takeover = false ∧ s.plan.fencePause = false ∧ s.plan.pausePending = false ∧ s.faults.failing = [] := by decide
theorem witness_frames_idle : LinksIdle (wWalk 0 (.nop 0) id) ∧ PacksIdle (wWalk 0 (.nop 0) id) :=
  ⟨⟨⟨no_transfer _ (by simp [wWalk, Seq.idle]), rfl, fun _ => ⟨rfl, rfl, rfl⟩⟩, fun _ => rfl⟩, fun _ => rfl⟩

/-- What a frame start may meet: a switch to another plan or to one whose checks fail, a pause, a takeover, a shared write, a failing row. -/
theorem witness_frame_events : let s := wWalk 0 (.nop 0) id
    let w : SharedWrite := { gen := 7, key := key 0x8000 4, value := 3, starts := 1, passedOn := false }
    let row : FailingRow := { source := 5, bank := 2, row := 9 }
    let im := parseImage 0 (imageNum wBlocks)
    s.plan.active.isSome = true ∧ s.plan.mode = .running ∧ s.twin.silent = false
    ∧ ({ s.plan with staged := some im, switchPending := true } : Plan).staged = some im
    ∧ activationFail (countStarts (clearBells (endFrame s))) im = none
    ∧ ({ s.plan with pausePending := true } : Plan).pausePending = true ∧ ({ s.plan with takeover := true } : Plan).takeover = true
    ∧ s.plan.staged = none ∧ w.key ∈ sharedKeys s.hw ∧ w.key ≠ epochKey ∧ w.key ≠ key 0x8000 3 ∧ w.starts = 1 ∧ ({ w with starts := 2 } : SharedWrite).starts = 2
    ∧ row.source < 0x700 ∧ tget 0 (repairOf s row.source row.bank).rows row.row = 0
    ∧ (repairOf s row.source row.bank).sparesUsed < sparesOf row.source := by decide +kernel

/-- wWalk with no slot in progress. -/
def wSlots (q : Nat) (slots : List (BitVec 128)) : State :=
  { wReady with plan := { wReady.plan with mode := .running, active := some (wImage q slots []), map := List.range 32 } }

/-- A slot of 15 ticks with this ENTRY and a completion record. -/
def wSlot (entry : Nat) : BitVec 128 := BitVec.ofNat 128 (15 * 2 ^ 72 + entry * 2 ^ 37 + 2 ^ 36)

/-- A slot that begins on time, in the frame's first tick, and one that begins after its last tick, with a program and without. -/
theorem witness_slot_start : let s (entry : Nat) : State := { wSlots 31 [wSlot entry, 0] with clock := { wReady.clock with tick := 15 } }
    let b (entry : Nat) : Nat := (wSlot entry).toNat
    let im (entry : Nat) : Image := wImage 31 [wSlot entry, 0] []
    seqImage (s 0) 31 = some { slots := [wSlot 0, 0], prog := [] } ∧ (1 : BitVec 10).toNat < [wSlot 0, 0].length ∧ seqExists wReady.hw 31 = true
    ∧ (s 0).plan.active = some (im 0) ∧ (getSeq (s 0) 31).frameOf = none ∧ (slotPlace (s 0) (im 0) 31 (b 0) (s 0).plan.frameTick 0).1 ≤ (s 0).clock.tick
    ∧ slotMayStart (s 0) 31 (b 0) = true ∧ (getSeq (s 0) 31).stretched = false ∧ seqStretched (s 0) 31 0 = false
    ∧ (slotPlace (s 0) (im 0) 31 (b 0) 0 0).1 + (slotPlace (s 0) (im 0) 31 (b 0) 0 0).2 - 1 < (s 0).clock.tick
    ∧ slotEntry (b 0) ≠ 0x1FFF ∧ slotEntry (b 0x1FFF) = 0x1FFF ∧ slotCpl (b 0x1FFF) = true ∧ slotMayStart (s 0x1FFF) 31 (b 0x1FFF) = true
    ∧ wReady.clock.tick ≤ (slotPlace (s 0) (im 0) 31 (b 0) 0 0).1 + (slotPlace (s 0) (im 0) 31 (b 0) 0 0).2 - 1 := by decide +kernel
/-- Frames of 40 ticks, the one in progress the second since the program of slot 0 began, which ran on until its first tick: slot 1 is of the
first frame, and slot 0 of the frame after that. -/
theorem witness_slot_delayed : let im : Image := { wImage 31 [0, 0] [] with header := BitVec.ofNat 2048 (40 * 2 ^ 64) }
    let s := setSeq 31 { Seq.idle with frameOf := some 5, freeAt := 86 }
      { wSlots 31 [0, 0] with clock := { wReady.clock with tick := 87 }, plan := { (wSlots 31 [0, 0]).plan with active := some im, frameTick := 85 } }
    im.frameLen = 40 ∧ (getSeq s 31).frameOf = some 5 ∧ (getSeq s 31).slot = 0 ∧ s.plan.frameTick = 5 + 2 * im.frameLen
    ∧ (slotPlace s im 31 0 5 2).1 ≤ (getSeq s 31).freeAt ∧ slotFrame s im 31 1 0 = (5, 2)
    ∧ s.plan.frameTick = 5 + im.frameLen + 1 * im.frameLen ∧ (slotPlace s im 31 0 45 1).1 ≤ (getSeq s 31).freeAt ∧ slotFrame s im 31 0 0 = (45, 1) := by
  decide +kernel
theorem witness_slot_last : let s := setSeq 0 { Seq.idle with running := true } (wSlots 0 [BitVec.ofNat 128 (0x1FFF * 2 ^ 37)])
    (getSeq s 0).running = true ∧ slotEntry (slotBits s 0) = 0x1FFF
    ∧ slotEntry (slotBits (wWalk 48 (.nop 48) id) 48) ≠ 0x1FFF ∧ (getSeq (wWalk 48 (.nop 48) id) 48).overrun = false
    ∧ (wWalk 48 (.nop 48) id).faults.overran.contains (seqSource 48) = false := by decide +kernel

/-- An ended slot of stream 4 whose operations are done, its ring at this address. -/
def wEnded (ring : Nat) : State :=
  setSeq 0 { Seq.idle with ended := [{ stream := 4, tenant := 7, firstOp := 0, upTo := 0, overrun := true, inFrame := true, yielded := false }] }
    (setObj (key 0x3000 1) (2 ^ 126 + wRegion 0 0x40) { wReady with
      plan := { wReady.plan with mode := .running, active := some { wImage 0 [] [] with header := BitVec.ofNat 2048 (ring * 2 ^ 384 + 4 * 2 ^ 448) } } })

theorem witness_completion :
    recordDue (wEnded 0x100) 0 = some { stream := 4, tenant := 7, firstOp := 0, upTo := 0, overrun := true, inFrame := true, yielded := false }
    ∧ seqExists wReady.hw 0 = true ∧ (wEnded 0x100).faults.fatal = false ∧ (wEnded 0x100).plan.active.isSome = true
    ∧ (∃ w, privAccess (wEnded 0x100) 0x100 false = .ok 0 w) ∧ privAccess (wEnded 0x200000) 0x200000 false = .refused := by
  exact ⟨by decide +kernel, by decide, rfl, rfl, ⟨_, rfl⟩, by decide +kernel⟩

theorem witness_canonical : Canonical State.reset ∧ Canonical wReady ∧ Canonical (wWalk 0 (.nop 0) id) := by
  unfold Canonical; decide +kernel
theorem witness_test_slot : let s := wWalk 0 (.nop 0) id
    framesRun s = true ∧ s.plan.testSlot = false ∧ s.faults.fatal = false
    ∧ ({ s.plan with testSlot := true } : Plan).testSlot = true ∧ s.tests.tested = [] := by decide

/-- A test item of the merge trees' unit type, and a package of it. -/
def wItem : TestItem :=
  { number := 9, unitType := 4, startOnly := false, rowTest := false, duration := 1, stimOff := 0, stimLen := 0, signature := 0xABCD }
def wPackage : Package := { id := 1, digest := 0, items := [wItem] }

/-- The start tests, that package installed in slot 2. -/
def wTests : State :=
  { wReady with boot := { wReady.boot with phase := .tests }, tests := { wReady.tests with packages := [(2, wPackage)] } }

theorem witness_test_verdict : srcExists wTests.hw 0x401 = true ∧ wTests.faults.fatal = false
    ∧ verdictTime wTests 0x401 2 = true ∧ verdictTime wTests 0x401 0xF = true
    ∧ (testItem wTests 0x401 2 9).isSome = true ∧ testItem wTests 0x401 0xF 77 = some none
    ∧ (testItem wTests 0x401 2 9).bind (·.map (fun i => i.signature)) = some 0xABCD := by decide +kernel
theorem witness_digest : let s := { wReady with plan := { wReady.plan with digestSteps := 4096 } }
    s.plan.digestInterval ≤ s.plan.digestSteps ∧ s.faults.fatal = false := by decide

/-! ## Witnesses: clusters, queues, islands -/

/-- Cluster 0 as given, of an instance at rest. -/
def wCl (c : Cluster) : State := setCl 0 c wReady

/-- Two lost lanes, the spare free; the spare lost as well. -/
theorem witness_lane_remap : let s := wCl { Cluster.idle with remapLane := some 15, lanesFenced := 0x8001 }
    let u := wCl { Cluster.idle with remapLane := some 16, lanesFenced := 0x10001, spareFor := some 0 }
    let v := wCl { Cluster.idle with remapLane := some 1, lanesFenced := 0x3, spareFor := some 0 }
    (getCl s 0).remapLane ≠ none ∧ (getCl s 0).fenced = false ∧ bitAt (getCl s 0).lanesFenced 16 = false ∧ (getCl s 0).spareFor = none
    ∧ (getCl u 0).remapLane ≠ none ∧ bitAt (getCl u 0).lanesFenced 16 = true
    ∧ (getCl v 0).remapLane ≠ none ∧ bitAt (getCl v 0).lanesFenced 16 = false ∧ (getCl v 0).spareFor ≠ none := by decide +kernel
theorem witness_element_codes : (fmtOf 0x10).isSome = true ∧ (fmtOf 0x04).isSome = true ∧ (fmtOf 0x05).isSome = true
    ∧ hZeroChan 0 = false ∧ 0 < ({ code := 1, intMin := 1 } : Anoms).code ∧ 0 < ({ code := 1, intMin := 1 } : Anoms).intMin := by decide +kernel
theorem witness_accumulator : accSat 0x7FFFFFFFFFFFFFFF = true ∧ accSat 0 = false ∧ (0 : Word) ≠ accPois := by decide
theorem witness_rmw : let u : Upd := { lane := 63, idx := 4, tile := 1, val := 2 ^ 63 - 1, poison := false, sat := false }
    (getCl (wCl { Cluster.idle with updates := [u] }) 0).updates.find? (fun x => x.lane == 63) = some u
    ∧ wReady.faults.fatal = false ∧ accSaturates 0 u.val u.poison u.sat = true ∧ accSaturates 0xFFFFFFFFFFFFFFFF u.val u.poison u.sat = false := by decide +kernel

/-- Weight delivery 7 feeds column 127 of the open tile, activation delivery 9 in its first row; the scales are 1. -/
def wRecords : Cluster :=
  { Cluster.idle with
    tiles := [(0, wOpenTile)], nextTile := 1
    wrecs := [{ seq := 7, tile := 1, verify := none, recs := [{ mant := 128, exp := 0, col := 127 }] }]
    arecs := [{ seq := 9, tile := 1, recs := [{ perToken := true, mant := 128, e := 14, exp := 0, rot := false, source := 0 }] }] }

/-- A partial of row 1, value -3, of those deliveries. -/
def wPartial : Word := BitVec.ofNat 64 (1 * 2 ^ 60 + 9 * 2 ^ 36 + 7 * 2 ^ 20 + (2 ^ 19 - 3))

theorem witness_partial : let a : ActScale := { perToken := true, mant := 128, e := 14, exp := 0, rot := false, source := 0 }
    let g : WGroup := { mant := 128, exp := 0, col := 127 }
    let d : WDelivery := { seq := 7, tile := 1, verify := none, recs := [g] }
    findW wRecords (ptWseq wPartial) (ptWgrp wPartial) = some (d, g) ∧ findA wRecords (ptAseq wPartial) (ptAgrp wPartial) = some a
    ∧ tileByUid wRecords 1 = some (0, wOpenTile) ∧ ptRow wPartial < wOpenTile.rows ∧ g.col < wOpenTile.cols ∧ ptPoison wPartial = false
    ∧ productQ (ptValue wPartial) g a ≠ 0 ∧ productX g a - wOpenTile.xt = 0
    ∧ findW Cluster.idle (ptWseq wPartial) (ptWgrp wPartial) = none := by decide +kernel

/-- A tile closed by a PACK into tensor 0. -/
def wPack : PackReq :=
  { desc := 0, off := 0, stats := true, ptok := true, stoch := false, link := none, by_ := { q := 0, op := 0 }, stream := 0, tenant := 0 }
def wClosed : Tile := { wOpenTile with named := false, closed := some wPack }

/-- A container that waits for its verdict, into tensor 0. -/
def wItemQ : PackItem :=
  { id := 3, endTick := 0, block := 0x20, dest := .mem (1 * 2 ^ 188 + 0x20 * 2 ^ 180) 0, arrived := true, residue := .unsettled, ranges := [],
    by_ := { q := 0, op := 0 }, stream := 0, tenant := 0 }

theorem witness_drain : let s := setCl 0 { Cluster.idle with tiles := [(7, wClosed)] } (wMem 0 (.nop 0) id)
    (getCl s 0).tiles.find? (fun e => e.1 == 7) = some (7, wClosed) ∧ s.faults.fatal = false ∧ 0 < wClosed.cols ∧ drainable s (getCl s 0) wClosed = true
    ∧ (fmtOf (tdFormat (tensorOf s wPack.desc))).isSome = true ∧ (fmtOf (tdFormat (tensorOf s wPack.desc))).any (fun f => decide (0 < f.cap)) = true
    ∧ (getCl s 0).packQueue.length + wClosed.made.length ≤ 128 := by decide +kernel
theorem witness_release : let p : DrainPiece := { num := 4, first := 0, words := [5], tail := false, endTick := 9 }
    let x : Tile := { wClosed with ready := true, made := [wItemQ], toPack := [p], drainDesc := 0x20 * 2 ^ 180 }
    x.made.length + x.toPack.length = 2 ∧ (∀ m ∈ x.made, m.residue = .unsettled) ∧ (fmtOf (tdFormat x.drainDesc)).isSome = true ∧ (wCl { Cluster.idle with tiles := [(7, x)] }).clusters.length = 1 ∧ x.closed = some wPack ∧ x.ready = true
    ∧ (getCl (wCl { Cluster.idle with tiles := [(7, x)] }) 0).packQueue.length + 2 ≤ 128 := by decide +kernel

/-- That container alone in cluster 0's queue, region 0 open to it. -/
def wQueued : State := setCl 0 { Cluster.idle with packQueue := [wItemQ] } (wMem 0 (.nop 0) id)

theorem witness_verdict : (getCl wQueued 0).packQueue = [wItemQ] ∧ 0 < writeRoom wQueued 0 ∧ wItemQ.residue = .unsettled ∧ wItemQ.ranges = []
    ∧ ∃ w, tensorAccess wQueued (1 * 2 ^ 188 + 0x20 * 2 ^ 180) 0 (some wItemQ.tenant) false false = .ok 0 w :=
  ⟨by decide +kernel, by decide +kernel, rfl, rfl, _, rfl⟩
theorem witness_verdict_alone : (∀ j, j ≠ 0 → (getCl wQueued j).packQueue = []) ∧ LinksIdle wQueued := by
  constructor
  · intro j h
    have e : (getCl wQueued j) = .idle := by
      show tget Cluster.idle [(0, { Cluster.idle with packQueue := [wItemQ] })] j = _
      simp [tget, h]
    rw [e]; rfl
  · exact ⟨⟨no_transfer _ (by simp [wQueued, setCl, wMem, setObj, wWalk, Seq.idle]), rfl, fun _ => ⟨rfl, rfl, rfl⟩⟩, fun _ => rfl⟩

theorem witness_residue : (5 : BitVec 5).toNat < nClusters wReady.hw ∧ (16 : BitVec 5).toNat < 17 ∧ powered wReady = true
    ∧ (getSrc wReady (17 * 5 + 16)).fenced = false
    ∧ pendingPass { Cluster.idle with flickPasses := [(16, { wPass with released := false })] } 3
      = some (16, { wPass with released := false }) := by decide +kernel

/-- A read for pad slot 16383, and a write, outstanding. -/
def wRead : ReadReq := { use := .pad 16383, addr := 0x100, priv := false, by_ := { q := 0, op := 0 }, stream := 0, tenant := 0 }
def wWrite : WriteReq := { word := 0, data := 0, by_ := { q := 0, op := 0 }, stream := 0, isContainer := true }
def wEaWord : EaWord := { lane := 15, word := 0, value := 0, by_ := { q := 0, op := 0 } }

theorem witness_fabric : let s := wCl { Cluster.idle with reads := [wRead], writes := [wWrite] }
    (getCl s 0).reads = [wRead] ∧ queueFull s 0 = false ∧ slotFenced (getCl s 0) 16383 = false ∧ (getCl s 0).writes = [wWrite]
    ∧ ({ lanes := [wEaWord] } : Machine.Ordering).lanes.find? (fun x => x.lane == 15) = some wEaWord := by decide +kernel

/-- An entry of queue 0 of 33 words, its header of this KIND. -/
def wEntryWords (kind : Nat) : List (BitVec 72) :=
  protect (put kind 56 8 + put 32 48 8 + put 0 36 12 + put 0 0 36) :: List.replicate 32 (protect 5)

/-- One entry waits in queue 0, its response with the cluster's. -/
def wEntry : State :=
  setQueue 0 { QueueSt.empty with entries := [wEntryWords (kindCode 0)], slots := [0] }
    (wCl { Cluster.idle with arrived := [{ req := wRead, ue := false }] })

theorem witness_queues : queueExists wReady.hw 31 = true ∧ wReady.faults.fatal = false ∧ (getQueue wReady 31).entries = []
    ∧ queueExists wReady.hw 0xB0 = true ∧ (getQueue wReady 0xB0).discard = 0 ∧ (getQueue wReady 0xB0).read = 0
    ∧ (readWord (protect 5 ^^^ 3)).isBad = true
    ∧ islandExists wReady.hw 33 = true ∧ islandExists wReady.hw 0 = true := by decide +kernel
theorem witness_queue_entry : (getQueue wEntry 0).entries = wEntryWords (kindCode 0) :: [] ∧ (getQueue wEntry 0).waiting = []
    ∧ ∀ x, (getCl wEntry 0).arrived.head? = some x → ∃ n, x.req.use = .pad n :=
  ⟨rfl, rfl, fun _ h => ⟨16383, by cases h; rfl⟩⟩

/-- A header of every KIND reads clean, as it was written. -/
theorem header_reads : ∀ k ∈ List.range 256, (readEntry (wEntryWords k) []).all (fun w => !w.isBad && !w.isCorrected) = true
    ∧ (readEntry (wEntryWords k) []).head?.map (fun w => (w.isBad, fld w.data 56 8, fld w.data 48 8, fld w.data 0 36))
      = some (false, k, 32, 0) := by decide +kernel
theorem kind_small (q : Nat) : kindCode q < 256 := by
  have := (Config.packetKind (queueClass q)).isLt
  unfold kindCode
  dsimp only
  split <;> omega
theorem witness_entry_clean : let ws := readEntry (wEntryWords (kindCode 0)) []
    ws.all (fun w => !w.isBad && !w.isCorrected) = true ∧ entryBad 0 0 ws = false := by
  have h := header_reads (kindCode 0) (List.mem_range.2 (kind_small 0))
  refine ⟨h.1, ?_⟩
  generalize readEntry (wEntryWords (kindCode 0)) [] = ws at h
  cases ws with
  | nil => simp at h
  | cons w r =>
    have g := h.2
    simp only [List.head?_cons, Option.map_some, Option.some.injEq, Prod.mk.injEq] at g
    simp [entryBad, packetBad, headerBad, entryWords, packetWords, kindKnown, g]
theorem witness_entry_bad : entryBad 0 0 (readEntry [protect 5 ^^^ 3] []) = true := by
  have h : packetBad 0 (readEntry [protect 5 ^^^ 3] []) = true := by decide +kernel
  unfold entryBad
  rw [h]; rfl

/-! ## Witnesses: the link -/

/-- Ports none of which holds anything: nothing is held anywhere. -/
theorem ports_idle (l : Tab Port) (h : ∀ e ∈ l, e.2.hold = [] ∧ e.2.window = [] ∧ e.2.chOut = [] ∧ e.2.rxOpen = []) (p : Nat) :
    (tget Port.down l p).hold = [] ∧ (tget Port.down l p).window = [] ∧ (tget Port.down l p).chOut = [] ∧ (tget Port.down l p).rxOpen = [] := by
  induction l with
  | nil => exact ⟨rfl, rfl, rfl, rfl⟩
  | cons e r ih =>
    simp only [List.mem_cons, forall_eq_or_imp] at h
    simp only [tget]
    split
    · exact h.1
    · exact ih h.2

/-- Port 15 as given, of an instance at rest. -/
def wPort (p : Port) : State := setPort 15 p wReady

theorem witness_links_idle (p : Port) (h : p.hold = [] ∧ p.window = [] ∧ p.chOut = [] ∧ p.rxOpen = []) :
    LinksIdle (wPort p) ∧ PacksIdle (wPort p) := by
  suffices h : ∀ e ∈ (wPort p).ports, e.2.hold = [] ∧ e.2.window = [] ∧ e.2.chOut = [] ∧ e.2.rxOpen = [] from
    ⟨⟨⟨fun _ => rfl, rfl, fun j => ⟨(ports_idle _ h j).1, (ports_idle _ h j).2.1, (ports_idle _ h j).2.2.1⟩⟩, fun j => (ports_idle _ h j).2.2.2⟩,
     fun _ => rfl⟩
  intro e he
  have : e = (15, p) ∨ e ∈ ([] : Tab Port) := by
    by_cases hp : p = .down
    · simp [wPort, setPort, tset, wReady, State.reset, tdel, hp] at he
    · simp [wPort, setPort, tset, wReady, State.reset, tins, hp] at he; exact .inl he
  rcases this with rfl | h'
  · exact h
  · cases h'

theorem witness_word_code : (2 ^ 64 - 1 : Nat) < 2 ^ 64 ∧ (0 : Nat) < 71 ∧ (71 : Nat) < 72 := by decide
theorem witness_link_layer : let works (s : State) : Prop := (getPort s 15).fenced = false ∧ s.faults.fatal = false ∧ s.boot.phase = .ready
    ((getPort (wPort .down) 15).layerUp = false ∧ works (wPort .down)) ∧ (getPort (wPort wUp) 15).layerUp = true
    ∧ (getPort (wPort { wUp with st := 1, partnerSeen := false }) 15).st = 1
    ∧ (getPort (wPort { wUp with st := 1, partnerSeen := false }) 15).partnerSeen = false
    ∧ (getPort (wPort { wUp with st := 1, partnerSeen := false }) 15).layerUp = true ∧ works (wPort { wUp with st := 1, partnerSeen := false })
    ∧ wReady.plan.testSlot = false ∧ ({ wReady.plan with testSlot := true } : Plan).testSlot = true := by
  decide

/-- A whole frame of this head, with these containers and no verdicts. -/
def wFrame (h : FrameHead) (cs : List Block) : Frame :=
  { header := headerWordOf wReady h, containers := cs, trailer := trailerWordOf 0 0 0 }

theorem witness_frames_arrive :
    (getPort (wPort wUp) 15).st = 2 ∧ (getPort (wPort wUp) 15).ethMode = 0 ∧ frameWhole (wFrame { typ := 1 } []) = true
    ∧ fhType (wFrame { typ := 1 } []) = 1 ∧ frameInSequence wUp (wFrame { typ := 1 } []) = true ∧ ftVcount (wFrame { typ := 1 } []) = 0
    ∧ fhEpoch (wFrame { typ := 1 } []) = epochOf (wPort wUp) % 4096
    ∧ frameWhole (wFrame { typ := 0, count := 2 } [1, 2]) = true ∧ fhType (wFrame { typ := 0, count := 2 } [1, 2]) = 0
    ∧ bufferTakes wUp (wFrame { typ := 0, count := 2 } [1, 2]) = true
    ∧ (let e : RxItem := { block := 1, channel := 9, seq := 0, verdict := .confirmed, hop := 0, sat := false, dropped := false, counted := false }
       bufferTakes { wUp with buf := List.replicate 1024 e } (wFrame { typ := 0, count := 1 } [1]) = false)
    ∧ (wFrame { typ := 1 } []).containers = [] ∧ frameInSequence wUp (wFrame { typ := 0, count := 2 } [1, 2]) = true := by decide +kernel
/-- Verdicts of two open containers, the first retracted: what the first gave stands in a pad slot, a tile and the buffer. -/
theorem witness_verdicts_arrive : let f : Frame := { wFrame { typ := 1, cseq := 1 } [] with trailer := trailerWordOf 65535 2 1 }
    let e : RxItem := { block := 1, channel := 9, seq := 65535, verdict := .unsettled, hop := 0, sat := false, dropped := false, counted := false }
    let q : Port := { wUp with rxC := 1, rxV := 65535, rxOpen := [65535, 0], buf := [e] }
    frameWhole f = true ∧ fhType f = 1 ∧ ftVcount f = 2 ∧ ftVbit f 0 = true ∧ ftVbit f 1 = false ∧ frameInSequence q f = true ∧ q.st = 2 ∧ f.containers = []
    ∧ fhEpoch f = epochOf wReady % 4096 ∧ e.verdict = .unsettled
    ∧ (padSlot { Cluster.idle with pad := [(3, { data := 0, poison := false, fill := none, pend := some (15, 65535), retracted := false })] } 3).pend
        = some (15, 65535)
    ∧ rangesHold 15 65535 [{ port := 15, lo := 65535, hi := 65535 }] = true := by decide +kernel
theorem witness_links_quiet : LinksQuiet (wPort { wUp with rxOpen := [65535, 0] }) ∧ PacksIdle (wPort { wUp with rxOpen := [65535, 0] }) := by
  refine ⟨⟨fun _ => rfl, rfl, fun j => ?_⟩, fun _ => rfl⟩
  show (tget Port.down [(15, _)] j).hold = [] ∧ (tget Port.down [(15, _)] j).window = [] ∧ (tget Port.down [(15, _)] j).chOut = []
  simp only [tget]
  split <;> exact ⟨rfl, rfl, rfl⟩
theorem witness_ack_held : fhType (wFrame { typ := 3 } []) = 3
    ∧ fhEpoch (wFrame { typ := 3 } []) ≠ epochOf (setObj epochKey 9 (wPort { wUp with st := 1 })) % 4096 := by decide +kernel
theorem witness_resync_arrives : frameWhole (wFrame { typ := 2 } []) = true ∧ fhType (wFrame { typ := 2 } []) = 2
    ∧ frameWhole (wFrame { typ := 3 } []) = true ∧ fhType (wFrame { typ := 3 } []) = 3 ∧ fhEpoch (wFrame { typ := 3 } []) = epochOf wReady % 4096
    ∧ (getPort (wPort { wUp with st := 1 }) 15).st = 1 ∧ (getPort (wPort { wUp with st := 1 }) 15).partnerSeen = true := by decide +kernel

/-- A sent container whose verdict is known. -/
def wSent : TxItem := { seq := 4, prov := true, verdict := .confirmed, makers := [], ranges := [], stream := 0 }

theorem witness_verdicts : let s := wPort { wUp with window := [wSent], txC := 5 }
    (getPort s 15).st = 2 ∧ verdictsDue s 15 = true ∧ s.plan.testSlot = false ∧ (getSeq s 47).running = false
    ∧ (∀ q, (getSeq s q).transfer = none) ∧ s.faults.fatal = false :=
  ⟨by decide +kernel, by decide +kernel, rfl, rfl, fun _ => rfl, rfl⟩
/-- A port that is UP and has held container 3 unsettled; one with nothing open; a test slot. -/
theorem witness_verdict_timeout : let s := wPort { wUp with rxOpen := [3] }
    (getPort s 15).rxOpen ≠ [] ∧ s.plan.testSlot = false ∧ (getPort s 15).layerUp = true ∧ (getPort s 15).fenced = false ∧ (getPort s 15).st = 2
    ∧ s.faults.fatal = false ∧ s.boot.phase = .ready ∧ (∀ q, (getSeq s q).transfer = none) ∧ s.eaHold = [] ∧ PacksIdle s
    ∧ (getPort wReady 15).rxOpen = [] ∧ ({ s.plan with testSlot := true } : Plan).testSlot = true :=
  ⟨by decide, rfl, by decide, by decide, by decide, rfl, rfl, fun _ => rfl, rfl, fun _ => rfl, rfl, rfl⟩
theorem witness_verdict_timeout_holds : ∀ j, (getPort (wPort { wUp with rxOpen := [3] }) j).hold = [] := by
  intro j
  show (tget Port.down [(15, _)] j).hold = []
  simp only [tget]
  split
  · rfl
  · rfl

/-- The chorus engine of port 1: a CHORUS of 5 containers ahead in the program, an upstream container on channel 9, a local one. -/
def wChorus : State :=
  let i : Instr := .chorus 33 0 0 4 0 0
  let u : RxItem := { block := 0x20, channel := 9, seq := 0, verdict := .confirmed, hop := 2, sat := false, dropped := false, counted := false }
  setCl 0 { Cluster.idle with packQueue := [{ wItemQ with dest := .link 1 }] } (setPort 4 { wUp with buf := [u] } (wLinked 33 i (wXd 5 1 0 0 7 9) wUp))

theorem witness_chorus : chorusJob wChorus 1 = some ((wXd 5 1 0 0 7 9).toNat, 5) ∧ xdChannel (wXd 5 1 0 0 7 9).toNat = 9
    ∧ (rxFirst wChorus 9).isSome = true ∧ linkItems wChorus (physicalOf wChorus (xdCluster (wXd 5 1 0 0 7 9).toNat)) 1 = [{ wItemQ with dest := .link 1 }]
    ∧ (getPort wChorus 1).chPaired < 5 ∧ (getPort wChorus 1).chOut.length < 64 ∧ wChorus.plan.testSlot = false
    ∧ (getPort wChorus 1).fenced = false ∧ wChorus.faults.fatal = false := by decide +kernel
theorem witness_chorus_idle : ∀ q, (getSeq wChorus q).transfer = none :=
  no_transfer _ (by simp [wChorus, wLinked, setCl, setPort, wMem, wWalk, setObj, Seq.idle])

/-! ## Witnesses: the twin -/

/-- A pair: this twin in the role, with or without authority. -/
def wTwin (r : Role) (auth : Bool) : State := { wReady with twin := { wReady.twin with role := r, auth := auth } }

/-- wReady in another phase. -/
def wPhase (p : Phase) : State := { wReady with boot := { wReady.boot with phase := p } }

/-- A croak of twin 1 with this role, with FATAL or without. -/
def wCroak (role : Nat) (fatal : Bool) : BitVec 72 := protect (0xC5 * 2 ^ 56 + role * 2 ^ 12 + 1 * 2 ^ 11 + b2n fatal * 2 ^ 10)

theorem witness_croaks : let s := wTwin .pairedAuth true
    controllerUp s = true ∧ s.faults.fatal = false ∧ twinDrives s = true ∧ croakValid s 0 = false
    ∧ (∀ r ∈ [0, 1, 2, 3, 4, 5], croakValid s (wCroak r false) = true ∧ bitAt (readWord (wCroak r false)).data 10 = false
        ∧ fld (readWord (wCroak r false)).data 12 4 = r)
    ∧ croakValid s (wCroak 0 true) = true ∧ bitAt (readWord (wCroak 0 true)).data 10 = true
    ∧ s.twin.role ≠ .splitFollower ∧ reviving s = false ∧ s.twin.role ≠ .sole ∧ s.twin.role ≠ .splitAuth
    ∧ s.twin.held = [] ∧ s.twin.shared = [] ∧ s.dict.waiting = [] ∧ s.boot.phase = .ready := by decide +kernel
/-- The window's ends. -/
theorem witness_croak_windows : let w := wReady.twin
    ({ w with skipWindow := true } : Twin).skipWindow = true ∧ w.skipWindow = false
    ∧ ({ w with heard := true } : Twin).heard = true ∧ w.heardSplit = false
    ∧ ({ w with heard := true, heardSplit := true, validRun := 6 } : Twin).validRun + 1 ≠ 8
    ∧ ({ w with heard := true, heardSplit := true, validRun := 7 } : Twin).validRun + 1 = 8 ∧ w.mirroring = false
    ∧ w.heard = false ∧ wReady.dict.busOff = false ∧ ({ w with missedRun := 7 } : Twin).missedRun + 1 = 8
    ∧ w.silent = false ∧ wReady.dict.waiting = [] := by decide +kernel
/-- A SOLE twin 0 ignores a SOLE croak, a SOLE twin 1 takes it as a fault; a joiner's croak at a SOLE twin and in a silence; a split
follower that gave authority up, and one that did not. -/
theorem witness_croaks_sole : controllerUp wReady = true ∧ wReady.twin.role = .sole ∧ wReady.boot.twinIdx = false
    ∧ ({ wReady.boot with twinIdx := true } : Boot).twinIdx = true ∧ wReady.twin.mirroring = false ∧ wReady.twin.silent = false
    ∧ ({ wReady.twin with silent := true } : Twin).silent = true
    ∧ (wTwin .splitFollower false).twin.role = .splitFollower ∧ (wTwin .splitFollower false).twin.authPending = none
    ∧ ({ (wTwin .splitFollower false).twin with authPending := some 1 } : Twin).authPending = some 1 ∧ 1 ≠ ownIdx (wTwin .splitFollower false)
    ∧ (wTwin .pairedFollower false).twin.role = .pairedFollower ∧ wReady.twin.authPending = none
    ∧ twinDrives wReady = true ∧ twinDrives (wPhase .quiesced) = false
    ∧ controllerUp (wTwin .splitFollower false) = true ∧ (let s := { wTwin .joining false with boot := { wReady.boot with phase := .handshake } }
       reviving s = true ∧ controllerUp s = true ∧ s.faults.fatal = false ∧ croakValid s (wCroak 4 false) = true) := by decide +kernel
theorem witness_probes : ∀ r ∈ [Role.pairedFollower, .sole], let s := { wTwin r false with twin := { (wTwin r false).twin with silent := true } }
    s.twin.silent = true ∧ s.faults.fatal = false ∧ s.twin.held = [] ∧ s.twin.shared = [] ∧ s.dict.waiting = [] ∧ s.boot.phase = .ready
    ∧ s.twin.tries + 1 < obj s (key 0xB000 4) ∧ obj s (key 0xB000 4) ≤ 2 + 1 ∧ (s.twin.acked || true) = true
    ∧ (s.twin.acked || false) = false ∧ s.dict.busOff = false ∧ ({ s.dict with busOff := true } : Dict).busOff = true
    ∧ bitAt (0x85 : BitVec 8).toNat 7 = true ∧ bitAt (0x01 : BitVec 8).toNat 7 = false := by decide +kernel
theorem witness_twin_traffic : let s := wTwin .pairedFollower false
    controllerUp s = true ∧ s.faults.fatal = false ∧ s.twin.silent = false ∧ s.twin.role = .pairedFollower ∧ s.twin.shared = []
    ∧ s.dict.waiting = [] ∧ framesRun s = false ∧ s.boot.phase = .ready
    ∧ (∀ k ∈ [authKey, epochKey, key 0x9000 5, key 0x8000 3, key 0xB000 5], key 0x8000 4 ≠ k) ∧ (true : Bool) ≠ s.boot.twinIdx := by
  decide +kernel
/-- The end of the window at which a grant to twin 1 takes effect, at twin 0 that agreed with it, one that did not, and before it. -/
theorem witness_auth_window : let s := wTwin .pairedAuth true
    let w : Twin := { s.twin with heard := true, authPending := some 1, authAt := 0, authSure := true }
    w.skipWindow = false ∧ w.heard = true ∧ w.heardSplit = false ∧ w.auth ≠ decide (1 = ownIdx s) ∧ s.boot.phase = .ready ∧ s.dict.waiting = []
    ∧ w.authAt ≤ s.clock.time / 10000 ∧ w.authSure = true ∧ ({ w with authSure := false } : Twin).authSure = false
    ∧ s.clock.time / 10000 < ({ w with authAt := 16 } : Twin).authAt := by decide +kernel
/-- What arrives in a warm start's quiesce is kept. -/
theorem witness_inbox : let s := { wPhase .quiesced with boot := { (wPhase .quiesced).boot with warm := true, heldFrom := .ready } }
    keepsMessages s = true ∧ s.faults.fatal = false ∧ s.twin.silent = false := by decide
/-- The steps of a TWIN_AUTH write: the holder twin 0 is asked for twin 1's authority, and hears that twin 1 agrees; twin 1 is granted it and
hears that twin 0 confirms; a step that names the other twin changes nothing. -/
theorem witness_auth_steps : let w : Waiting := { gen := none, key := authKey, value := 1, by_ := .can 1, req := none, size := 1 }
    let one (s : State) : State := { s with boot := { s.boot with twinIdx := true }, dict := { s.dict with waiting := [w] } }
    let up (s : State) : Prop := controllerUp s = true ∧ s.faults.fatal = false ∧ s.twin.silent = false ∧ PairedRole s.twin.role ∧ s.boot.phase = .ready
    (up (wTwin .pairedAuth true) ∧ (wTwin .pairedAuth true).twin.auth = true ∧ 1 ≠ ownIdx (wTwin .pairedAuth true)
      ∧ 0 = ownIdx (wTwin .pairedAuth true))
    ∧ (up (one (wTwin .pairedFollower false)) ∧ (one (wTwin .pairedFollower false)).twin.auth = false
      ∧ 1 = ownIdx (one (wTwin .pairedFollower false)) ∧ ∀ x ∈ (one (wTwin .pairedFollower false)).dict.waiting, x.key = authKey)
    ∧ twinDrives (wTwin .pairedAuth true) = true
    ∧ ({ wReady.twin with authPending := some 1 } : Twin).authPending = some 1 ∧ wReady.twin.authPending ≠ some 1 := by
  unfold PairedRole; decide +kernel
theorem witness_handshake : let s := { wTwin .joining false with boot := { wReady.boot with phase := .handshake } }
    controllerUp s = true ∧ s.boot.phase = .handshake ∧ s.boot.epochGiven = none ∧ s.twin.mirrorIn = [] ∧ s.twin.held = []
    ∧ s.twin.silent = false ∧ s.faults.fatal = false := by decide

/-- wReady with the presence window open. -/
def wPresent (s : State) : State := { s with pres := { s.pres with windowOpen := true, windowEnd := 120000000000, st := .opened } }

/-- TWIN_AUTH written at twin 0: to the value that stands, to the holder for the other twin, to the follower for itself. -/
theorem witness_twin_auth :
    let base (s : State) : Prop := WriteServed wReq authKey s ∧ s.twin.silent = false ∧ presenceOpen s = true
      ∧ flashOk s = true ∧ PairedRole s.twin.role ∧ s.boot.phase = .ready ∧ s.twin.authPending = none
    let a := wPresent (wTwin .pairedAuth true)
    let b := wPresent (wTwin .pairedFollower false)
    base a ∧ base b ∧ (1 : BitVec 8).toNat ≤ 1 ∧ decide ((0 : BitVec 8).toNat = ownIdx a) = a.twin.auth
    ∧ decide ((1 : BitVec 8).toNat = ownIdx a) ≠ a.twin.auth ∧ a.twin.auth = true
    ∧ decide ((0 : BitVec 8).toNat = ownIdx b) ≠ b.twin.auth ∧ b.twin.auth = false := by
  unfold WriteServed PathFree NothingAhead PairedRole; decide +kernel

/-! ## Witnesses: the collector -/

/-- A report of lane 5 of cluster 0. -/
def wDet (c : FaultClass) : Detection := { source := 5, cls := c, access := 2 }

/-- wReady with source 5 in this state. -/
def wSrc (v : SrcState) : State := setSrc 5 v wReady

theorem witness_reports : srcExists wReady.hw (wDet .corrected).source.toNat = true ∧ powered wReady = true ∧ wReady.faults.reports = []
    ∧ wReady.faults.acks = [] ∧ failsAttempt wReady (wDet .corrected) = false
    ∧ (getSrc (wSrc { SrcState.clear with fenced := true }) 5).fenced = true ∧ wReady.faults.fatal = false ∧ (getSrc wReady 5).fenced = false
    ∧ (escalate (getSrc wReady 5) .corrected).1 = .corrected ∧ (escalate (getSrc (wSrc { SrcState.clear with corr := true }) 5) .corrected).1 = .contained
    ∧ (escalate (getSrc (wSrc { SrcState.clear with cont := true }) 5) .contained).1 = .fatal ∧ (5 : Nat) / 256 ≠ 6
    ∧ obj (setObj (ferOf .corrected) 1 wReady) (ferOf .corrected) ≠ 0 ∧ laneOf 0x900 = none := by decide +kernel
/-- A fatal fault of the controller in an attempt; an uncorrectable word of a scale file. -/
theorem witness_report_attempt :
    let s : State := { wReady with boot := { wReady.boot with phase := .attempt } }
    let d : Detection := { source := 0x903, cls := .fatal, access := 1 }
    failsAttempt s d = true ∧ srcExists s.hw d.source.toNat = true ∧ powered s = true
    ∧ (let e : Detection := { source := 0x31F, cls := .fatal, access := 6 }
       e.source.toNat / 256 = 3 ∧ srcExists wReady.hw e.source.toNat = true ∧ (getSrc wReady e.source.toNat).corr = false) := by decide +kernel
theorem witness_acks : WriteServed wReq (key 0x7200 2) wReady ∧ (0x3005 : BitVec 16).toNat < 2 ^ 14
    ∧ srcExists wReady.hw (fld (0x3005 : BitVec 16).toNat 0 12) = true ∧ WriteServed wReq (key 0x7200 3) wReady
    ∧ WriteServed wReq (key 0x7200 1) wReady ∧ (3 : BitVec 8).toNat ≤ 3
    ∧ ({ wReady.faults with reports := [{ d := wDet .corrected, forced := false, test := false, rowTest := none, time := 0, frame := 0 }] }
        : Faults).reports ≠ [] := by
  unfold WriteServed PathFree NothingAhead; decide +kernel
theorem witness_policy : let s := wSrc { SrcState.clear with corr := true, corrAccess := 2, cont := true, contAccess := 4 }
    (getSrc s 5).corr = true ∧ bitAt (obj s (key 0x7200 4)) (getSrc s 5).corrAccess = true ∧ (getSrc s 5).cont = true
    ∧ bitAt (obj s (key 0x7200 5)) (getSrc s 5).contAccess = true
    ∧ (getSrc (wSrc { SrcState.clear with cont := true, contRow := true }) 5).contRow = true := by decide +kernel
theorem witness_collector : WriteServed wReq (key 0x7100 1) wReady ∧ forceOk wReady (0x21005 : BitVec 32).toNat = true
    ∧ PresenceServed wReq (key 0x7100 2) (wPresent wReady) ∧ srcExists wReady.hw (5 : BitVec 16).toNat = true
    ∧ PresenceServed wReq (key 0x7300 1) (wPresent (wSrc { SrcState.clear with fenced := true })) ∧ (5 : BitVec 16).toNat < 0x220
    ∧ (getSrc (wPresent (wSrc { SrcState.clear with fenced := true })) 5).fenced = true ∧ WriteServed wReq (key 0x8010 4) wReady
    ∧ inFencedCluster wReady 5 = false ∧ (getCl wReady (5 / 17)).fenced = false := by
  unfold PresenceServed MayShare WriteServed PathFree NothingAhead; decide +kernel

/-- A history with one entry. -/
def wHist : State := { wPresent wReady with hist := { own := [{ seq := 7, kind := 1, twin := false, ref := 0, record := 0 }], twin := [], nextSeq := 8, unsent := 8 } }

theorem witness_history : PresenceServed wReq (key 0x9000 4) wHist ∧ twinFlows wHist = false ∧ wHist.hist.own.length < histMax
    ∧ (wHist.hist.own.find? (fun x => x.seq.toNat == 7)).isSome = true ∧ PresenceServed wReq (key 0x9000 5) wHist
    ∧ bitAt (3 : BitVec 8).toNat (b2n wHist.boot.twinIdx) = true ∧ bitAt (1 : BitVec 8).toNat (b2n (!wHist.boot.twinIdx)) = false := by
  unfold PresenceServed MayShare WriteServed PathFree NothingAhead; decide +kernel
theorem witness_fatal : let s := { wReady with faults := { wReady.faults with fatal := true } }
    s.faults.fatal = true ∧ s.boot.phase ≠ .off ∧ Instr.croakSend ≠ .powerFail ∧ exec .croakSend s = .next s ∧ NothingAhead s := by
  exact ⟨rfl, by decide, by decide, rfl, rfl, rfl, rfl⟩
/-- In the fatal state: a window channel that is free and one of a malformed register; a WRITE frame at the controller. -/
theorem witness_fatal_codes : let s := { wReady with faults := { wReady.faults with fatal := true } }
    powered s = true ∧ romServes s = false ∧ (getWin s true).busy = false ∧ winMalformed 0x20500400 0 = false
    ∧ winMalformed 0x20500400 (getWin s true).off = false ∧ s.pending = []
    ∧ (let m : CanReq := { dst := 0x20, src := 1, tag := 5, payload := [0x50, 0x20, 4, 1, 2, 0, 0, 0, 0, 0, 0, 0, 0xFE, 1] }
       RequestTaken m s ∧ 12 ≤ m.payload.length ∧ payByte m.payload 3 ≤ 1) := by
  unfold RequestTaken NothingAhead; decide +kernel
/-- A datapath command that answers a next state. -/
theorem witness_datapath : exec (.laneRemap 0) wReady = .next wReady := rfl

/-! ## Witnesses: shared objects, loads, moult -/

theorem witness_shared : DecidesAlone wReady ∧ WriteServed wReq epochKey wReady ∧ flashOk wReady = true
    ∧ 1 ≤ ((2047 : BitVec 16).toNat + 4096 - epochOf wReady % 4096) % 4096 ∧ ((2047 : BitVec 16).toNat + 4096 - epochOf wReady % 4096) % 4096 ≤ 2047
    ∧ WriteServed wReq (key 0x8000 3) wReady ∧ packageRefusal wReady [] = some 1 := by
  unfold DecidesAlone WriteServed PathFree NothingAhead; decide +kernel
/-- A package image of one item, 512 bytes, for T32. -/
def wImagePkg : List Byte :=
  bytesOf 4 0x544B4347 ++ bytesOf 4 0x00040001 ++ bytesOf 4 77 ++ bytesOf 4 512 ++ bytesOf 4 1 ++ bytesOf 4 256 ++ List.replicate 232 0
  ++ bytesOf 8 (9 + 4 * 2 ^ 32) ++ bytesOf 4 1 ++ List.replicate 12 0 ++ bytesOf 8 0xABCD ++ List.replicate 224 0

theorem witness_install : packageRefusal wReady wImagePkg = none ∧ packageSlot wReady (packageOf wImagePkg) = some 0 := by decide +kernel
theorem witness_shared_idle : LinksIdle wReady ∧ PacksIdle wReady :=
  ⟨⟨⟨fun _ => rfl, rfl, fun _ => ⟨rfl, rfl, rfl⟩⟩, fun _ => rfl⟩, fun _ => rfl⟩
theorem witness_loads : PathFree wReq wReady ∧ (List.replicate 52 (0 : Byte)).length ≤ segmentMax wReq ∧ (256 : BitVec 32).toNat % 256 = 0
    ∧ openOf wReady (key 0x8000 2) = none ∧ openOf wReady (key 0xC000 1) = none ∧ wReady.dict.opens.length < 4
    ∧ (List.replicate 64 (0 : Byte)).length ≤ segmentMax (.win true) := by
  unfold PathFree NothingAhead; decide +kernel
theorem witness_load_last : let o (k : Nat) : OpenWrite := { key := k, by_ := wReq, total := 256, bytes := List.replicate 208 0 }
    let s (k : Nat) : State := { wReady with dict := { wReady.dict with opens := [o k] } }
    openOf (s (key 0x8000 2)) (key 0x8000 2) = some (o (key 0x8000 2)) ∧ openOf (s (key 0xC000 1)) (key 0xC000 1) = some (o (key 0xC000 1))
    ∧ PathFree wReq (s (key 0x8000 2)) ∧ (208 : BitVec 32).toNat + (List.replicate 48 (0 : Byte)).length = (256 : BitVec 32).toNat
    ∧ (o 0).bytes.length = (208 : BitVec 32).toNat := by
  unfold PathFree NothingAhead; decide +kernel

/-- Patch slots A and B in these states. -/
def wSlotted (a b : Nat) : Ident :=
  { Ident.empty with slotA := { PatchSlot.empty with state := a }, slotB := { PatchSlot.empty with state := b } }

/-- An instance with that identity block, running a candidate. -/
def wMoult (i : Ident) (c : Candidate) (slot : Nat) : State :=
  wPresent { wReady with boot := { wReady.boot with ident := i, running := c, runningSlot := slot, fwStaging := some [] } }

theorem witness_moult : PresenceServed wReq (key 0xC000 2) (wMoult (wSlotted 1 3) .active 1) ∧ (wMoult (wSlotted 1 3) .active 1).boot.fwStaging = some []
    ∧ slotIn (wSlotted 1 3) 1 = some false ∧ slotIn (wSlotted 1 3) 3 = some true ∧ WriteServed wReq (key 0xC000 3) (wMoult (wSlotted 1 2) .trial 2)
    ∧ flashOk (wMoult (wSlotted 1 2) .trial 2) = true ∧ (wMoult (wSlotted 1 2) .trial 2).boot.running = .trial
    ∧ slotIn (wMoult (wSlotted 1 2) .trial 2).boot.ident 2 = some true
    ∧ slotIn (wMoult (wSlotted 1 2) .trial 2).boot.ident 1 = some false := by
  unfold PresenceServed MayShare WriteServed PathFree NothingAhead; decide +kernel
/-- An image in a patch slot. -/
def wPatch : PatchImage := { length := 256, digest := 0, config := 4, romId := 0 }

theorem witness_flash_jobs : let b (l : List FlashJob) : Boot := { wReady.boot with jobs := l }
    (b [.patch true .empty wPatch]).jobs = .patch true .empty wPatch :: [] ∧ (b [.package 7 wPackage]).jobs = .package 7 wPackage :: []
    ∧ (b [.ident .empty false]).jobs = .ident .empty false :: [] ∧ wReady.boot.jobs = [] ∧ wReady.boot.warmPending = none
    ∧ wReady.twin.role ≠ .splitAuth := by decide

/-! ## Witnesses: start -/

theorem witness_cold_start : State.reset.boot.phase = .off ∧ (governingCopy (flashKept State.reset)).isSome = true
    ∧ governingCopy (flashKept { State.reset with boot := { State.reset.boot with flash := { Flash.empty with copyA := none } } }) = none
    ∧ powered wReady = true ∧ wReady.boot.flash.aside = none ∧ wReady.boot.jobs = []
    ∧ (wPhase .attempt).boot.phase = .attempt ∧ (wPhase .attempt).faults.fatal = false
    ∧ (wPhase .attempt).boot.attempts < 3 ∧ 3 ≤ ({ (wPhase .attempt).boot with attempts := 3 } : Boot).attempts
    ∧ ({ (wPhase .attempt).boot with attemptFault := true } : Boot).attemptFault = true ∧ (wPhase .attempt).boot.attemptFault = false
    ∧ (wPhase .attempt).boot.warm = false ∧ (wPhase .attempt).hist.own = [] ∧ (wPhase .attempt).faults.failing = []
    ∧ ({ (wPhase .attempt).boot with warm := true } : Boot).warm = true
    ∧ (wPhase .tests).boot.phase = .tests ∧ (wPhase .tests).twin.role = .sole ∧ (wPhase .tests).boot.epochGiven = none
    ∧ (wTwin .joining false).twin.role ≠ .sole ∧ [((5 : BitVec 12), (2 : BitVec 4), (9 : BitVec 32))] ≠ [] := by decide +kernel
/-- WARM_N fell at the ready instance, and in boot-hold. -/
def wQuiet (p : Phase) : State := { wPhase .quiesced with boot := { (wPhase .quiesced).boot with warm := true, heldFrom := p } }

theorem witness_warm : warmAllowed wReady = true ∧ committing wReady = false
    ∧ committing { wReady with boot := { wReady.boot with jobs := [.package 0 wPackage] } } = true
    ∧ committing { wReady with boot := { wReady.boot with jobs := [.ident .empty true] } } = true
    ∧ (wQuiet .ready).boot.phase = .quiesced ∧ (wQuiet .ready).faults.fatal = false ∧ slotIn (wQuiet .ready).boot.ident 2 = none
    ∧ (wQuiet .ready).boot.heldFrom = .ready ∧ mustRestart (wQuiet .ready) = false ∧ (wQuiet .ready).faults.failing = []
    ∧ (wQuiet .bootHold).boot.heldFrom ≠ .ready ∧ wReady.boot.phase ≠ .quiesced
    ∧ ({ wReady.boot with warmPending := some false } : Boot).warmPending.isSome = true := by decide +kernel
theorem witness_epoch : WriteServed wReq (key 0x6100 3) (wPhase .epochWait) ∧ (4095 : BitVec 16).toNat < 4096
    ∧ bitAt (obj (wPhase .epochWait) (key 0x6100 3)) 15 = false ∧ (wPhase .epochWait).boot.phase = .epochWait ∧ (wPhase .epochWait).twin.auth = true
    ∧ WriteServed wReq (key 0x6100 3) wReady ∧ bitAt (obj wReady (key 0x6100 3)) 15 = false ∧ wReady.boot.phase ≠ .epochWait
    ∧ flashOk wReady = true ∧ flashOk (wPhase .epochWait) = true ∧ (wPhase .epochWait).faults.fatal = false := by
  unfold WriteServed PathFree NothingAhead; decide +kernel

/-! ## Witnesses: the dictionary -/

/-- The existing object of a plain write. -/
theorem plain_write (k n v : Nat) (s : State) (f : Fam) (h : findFam s.hw k = some f) (a : f.acc = .rw) (l : f.len = n)
    (r : inRange s .rw k v = true) (x : isSelector k = false) (e : k ≠ key 0x6100 3) (c : ¬ (0x4100 ≤ k / 256 ∧ k / 256 < 0x4120))
    (b : objBusy s k = false) : PlainWrite k n v s := ⟨⟨f, h, a, l⟩, r, x, e, c, b⟩

theorem witness_plain : WriteServed wReq (key 0x2050 4) wReady ∧ PlainWrite (key 0x2050 4) 2 0x1FE wReady := by
  refine ⟨by unfold WriteServed PathFree NothingAhead; decide +kernel, plain_write _ _ _ _ _ rfl rfl rfl ?_ ?_ ?_ ?_ ?_⟩ <;> decide +kernel
theorem witness_region : PlainWrite (key (0x3000 + 63) 1) 16 (wRegion 0 0) wReady := by
  refine plain_write _ _ _ _ _ rfl rfl rfl ?_ ?_ ?_ ?_ ?_ <;> decide +kernel
theorem witness_region_invalid : PlainWrite (key (0x3000 + 63) 1) 16 0 wReady := by
  refine plain_write _ _ _ _ _ rfl rfl rfl ?_ ?_ ?_ ?_ ?_ <;> decide +kernel
theorem witness_ret_page : PlainWrite (retKey 255) 8 (2 ^ 63 + (2 ^ 36 - 1)) wReady := by
  refine plain_write _ _ _ _ _ rfl rfl rfl ?_ ?_ ?_ ?_ ?_ <;> decide +kernel
theorem witness_objects : WriteServed wReq (key (0x3000 + 63) 1) wReady ∧ WriteServed wReq (retKey 255) wReady
    ∧ WriteServed wReq (key 0x2070 1) wReady ∧ (31 : BitVec 5).toNat < nClusters wReady.hw ∧ (2 : BitVec 8).toNat ≤ 129
    ∧ WriteServed wReq (key (0x4100 + 31) 129) wReady ∧ 128 ≤ fld (0x80FF : BitVec 16).toNat 8 8 ∧ scaleBusy wReady 31 = false
    ∧ PresenceServed wReq (key 0x1008 2) (wPresent wReady) ∧ (0x7FE : BitVec 16).toNat % 2 = b2n wReady.boot.twinIdx
    ∧ WriteServed wReq (key 0x1101 1) wReady ∧ flashOk wReady = true := by
  unfold PresenceServed MayShare WriteServed PathFree NothingAhead; decide +kernel

/-- A request of node 1 to this node. -/
def wCan (tag : BitVec 11) (payload : List Byte) : CanReq := { dst := 0x20, src := 1, tag := tag, payload := payload }

theorem witness_requests : RequestTaken (wCan 5 [0x50, 0x20, 4, 0, 0, 0, 0, 0]) wReady
    ∧ reqKey (wCan 5 [0x50, 0x20, 4, 0, 0, 0, 0, 0]) = key 0x2050 4 ∧ readCheck wReq wReady (key 0x2050 4) = 0
    ∧ (findFam wReady.hw (key 0x2050 4)).isSome = true
    ∧ readCheck wReq wReady (reqKey (wCan 5 [0xFF, 0xFF, 1, 0, 0, 0, 0, 0])) ≠ 0
    ∧ RequestTaken (wCan 5 [0x50, 0x20, 4, 1, 2, 0, 0, 0, 0, 0, 0, 0, 0xFE, 1]) wReady
    ∧ payNum [0x50, 0x20, 4, 1, 2, 0, 0, 0, 0, 0, 0, 0, 0xFE, 1] 12 2 = 0x1FE ∧ RequestTaken (wCan 5 [0x50, 0x20, 4]) wReady
    ∧ romServes wReady = false ∧ payByte [0x50, 0x20, 4, 1, 2, 0, 0, 0] 3 ≠ 0 ∧ payByte [0x50, 0x20, 4, 0, 0, 0, 0, 0] 3 = 0
    ∧ PathFree wReq wReady ∧ openOf wReady (key 0x2050 4) = none ∧ ((0 : BitVec 4) = 0 ∧ 8 ≤ (15 : BitVec 4).toNat) := by
  unfold RequestTaken PathFree NothingAhead; decide +kernel
/-- An ABORT of an object that exists, and of one that does not. -/
theorem witness_aborts : objExists wReady.hw (reqKey (wCan 5 [0x50, 0x20, 4])) = true ∧ objExists wReady.hw (reqKey (wCan 5 [0xFF, 0xFF, 1])) = false
    ∧ objExists wReady.hw (selKey 0x20500400) = true ∧ objExists wReady.hw (selKey 0xFFFF0100) = false ∧ (0x20500401 : BitVec 32).toNat % 256 ≠ 0 := by
  decide +kernel
/-- Requests that wait: a place is left, none is. -/
theorem witness_waiting : let m := { wCan 5 [] with waits := true }
    m.waits = true ∧ m.dst = ownNode wReady ∧ m.dst ≠ 0x7F ∧ isRequest m = true ∧ wReady.dict.canBuf.length < 7
    ∧ 7 ≤ ({ wReady.dict with canBuf := List.replicate 7 wBuffered } : Dict).canBuf.length := by decide
/-- The ROM responder answers: a request that the port takes up, the window. -/
theorem witness_rom : romServes (wPhase .bootHold) = true ∧ RequestTaken (wCan 5 [0x50, 0x20, 4]) (wPhase .bootHold)
    ∧ powered (wPhase .bootHold) = true ∧ (getWin (wPhase .bootHold) true).busy = false ∧ NothingAhead (wPhase .bootHold) := by
  unfold RequestTaken NothingAhead; decide +kernel
theorem witness_repeated : let q : Kept := { tag := 5, payload := [0x50, 0x20, 4, 0, 0, 0, 0, 0], reply := (0, []) }
    let s := { wReady with dict := { wReady.dict with kept := [(1, q)] } }
    let m := wCan 5 [0x50, 0x20, 4, 0, 0, 0, 0, 0]
    powered s = true ∧ m.dst = ownNode s ∧ m.dst ≠ 0x7F ∧ s.dict.kept.find? (fun e => e.1 == m.src.toNat) = some (m.src.toNat, q)
    ∧ isRequest m = true ∧ m.waits = false ∧ s.dict.canBuf = [] ∧ s.dict.busOff = false ∧ q.tag = m.tag ∧ q.payload = m.payload := by decide +kernel
theorem witness_window : powered wReady = true ∧ (getWin wReady true).busy = false ∧ (0x20500400 : BitVec 32).toNat % 256 = 0
    ∧ selKey 0x20500400 = key 0x2050 4 ∧ readCheck (.win true) wReady (selKey 0x20500400) = 0
    ∧ ((findFam wReady.hw (selKey 0x20500400)).any (fun f => decide (0 < f.len))) = true ∧ PathFree (.win true) wReady
    ∧ openOf wReady (selKey 0x20500400) = none ∧ selKey 0x80000200 = key 0x8000 2 ∧ wReady.dict.opens.length < 4
    ∧ 64 < (256 : BitVec 32).toNat ∧ (256 : BitVec 32).toNat % 256 = 0 ∧ (List.replicate 64 (0 : Byte)).length = 64 ∧ NothingAhead wReady
    ∧ readCheck (.win true) wReady (selKey 0xFFFF0100) ≠ 0 ∧ (0xFFFF0100 : BitVec 32).toNat % 256 = 0
    ∧ (0 : BitVec 32) ≠ 1 ∧ (5 : BitVec 32) ≠ 4 ∧ winMalformed 1 0 = true ∧ winMalformed 0 63 = true
    ∧ ({ getWin wReady true with busy := true } : WinChannel).busy = true := by
  unfold PathFree NothingAhead; decide +kernel
theorem witness_housekeeping :
    let s := { wReady with dict := { wReady.dict with notes := [(15, { NoteWindow.idle with running := true, count := 1 })] } }
    powered s = true ∧ romServes s = false ∧ s.dict.canBuf = [] ∧ (tget NoteWindow.idle s.dict.notes 15).running = true
    ∧ (tget NoteWindow.idle s.dict.notes 15).held = false ∧ s.dict.busOff = false ∧ s.twin.silent = false
    ∧ ({ s.dict with busOff := true } : Dict).busOff = true := by decide +kernel
theorem witness_recovery : ∀ j, (tget NoteWindow.idle ({ wReady with dict := { wReady.dict with busOff := true } } : State).dict.notes j).held = false :=
  fun _ => rfl

/-! ## Witnesses: pins and time -/

theorem witness_presence : powered wReady = true ∧ wReady.pres.st = .armed ∧ ({ wReady.pres with st := .qualifying, low := true } : Presence).st = .qualifying
    ∧ wReady.pres.windowOpen = false ∧ (wPresent wReady).pres.windowOpen = true ∧ (wPresent wReady).pres.st = .opened
    ∧ ({ wReady.pres with st := .held } : Presence).low = false := by decide
/-- A load beside an armed plan, within the limit on either side and beyond it; edges on either side of a millisecond, and far from one. -/
theorem witness_time_plan : let c (t : Nat) : Clock := { wArmed.clock with time := t, loaded := some 5000, fresh := false }
    planExists wArmed = true ∧ (c 3000).loaded = some 5000 ∧ (5000 ≤ (c 3000).time + 2000 ∧ (c 3000).time ≤ 5000)
    ∧ (5000 < (c 7000).time ∧ (c 7000).time ≤ 5000 + 2000) ∧ ¬ (5000 ≤ (c 2999).time + 2000)
    ∧ (let m (t : Nat) : Nat := (t + 500000) / 1000000 * 1000000
       998000 ≤ m 998000 ∧ m 998000 ≤ 998000 + 2000 ∧ m 1002000 < 1002000 ∧ 1002000 ≤ m 1002000 + 2000 ∧ ¬ (m 500000 ≤ 500000 + 2000)) := by
  decide +kernel
theorem witness_time : bitAt (0x40000000000000000 : BitVec 67).toNat 0 = false ∧ bitAt (1 : BitVec 67).toNat 0 = true
    ∧ (popcount 65 (fld (0x40000000000000000 : BitVec 67).toNat 1 65) % 2 == 0 && bitAt (0x40000000000000000 : BitVec 67).toNat 66) = true
    ∧ (popcount 65 (fld (0 : BitVec 67).toNat 1 65) % 2 == 0 && bitAt (0 : BitVec 67).toNat 66) = false
    ∧ planExists wReady = false ∧ wReady.clock.fresh = false ∧ ({ wReady.clock with fresh := true } : Clock).fresh = true
    ∧ ({ wReady.clock with loaded := some 5 } : Clock).loaded = some 5 ∧ wReady.clock.time < 2 ^ 64 ∧ wReady.clock.loaded = none ∧ wReady.clock.time % 1000000 = 0 ∧ (3 : BitVec 2).toNat < nStacks wReady.hw := by
  decide +kernel

end Sys2Proof.Tests
end

section
/-! Byte strings, lists of pieces, the anomaly counters and the groups of a container: the facts the element formats rest on. -/

namespace Sys2Proof.Machine

/-! ## Byte strings and bit fields -/

theorem bitAt_eq_testBit (v i : Nat) : bitAt v i = v.testBit i := by
  rw [bitAt, Nat.testBit_eq_decide_div_mod_eq, Bool.beq_eq_decide_eq]

theorem toBytes_eq_map (n v : Nat) : toBytes n v = (List.range n).map (byteAt v) := by
  induction n generalizing v with
  | zero => rfl
  | succ n ih =>
    have hshift (k : Nat) : byteAt (v / 256) k = byteAt v (k + 1) := by
      simp only [byteAt, fld, Nat.div_div_eq_div_mul]
      rw [show 256 * 2 ^ (8 * k) = 2 ^ (8 * (k + 1)) by rw [Nat.mul_succ, Nat.pow_add, Nat.mul_comm]]
    have hlow : byteAt v 0 = v % 256 := by simp [byteAt, fld]
    simp [toBytes, ih, List.range_succ_eq_map, hlow, hshift]

@[simp] theorem length_toBytes (n v : Nat) : (toBytes n v).length = n := by simp [toBytes_eq_map]

theorem toBytes_take (n m v : Nat) (h : m ≤ n) : (toBytes n v).take m = toBytes m v := by
  rw [toBytes_eq_map, toBytes_eq_map, ← List.map_take, List.take_range, Nat.min_eq_left h]

theorem toBytes_drop (n m v : Nat) : (toBytes n v).drop m = toBytes (n - m) (v / 256 ^ m) := by
  induction m generalizing n v with
  | zero => simp
  | succ m ih =>
    cases n with
    | zero => simp [toBytes]
    | succ n => simp [toBytes, ih, Nat.div_div_eq_div_mul, Nat.pow_succ, Nat.mul_comm]

theorem ofBytes_toBytes (n v : Nat) : ofBytes (toBytes n v) = v % 256 ^ n := by
  induction n generalizing v with
  | zero => simp [toBytes, ofBytes, Nat.mod_one]
  | succ n ih => rw [toBytes, ofBytes, ih, Nat.mod_mod, Nat.pow_succ', Nat.mod_mul]

theorem ofBytes_append (l m : List Nat) : ofBytes (l ++ m) = ofBytes l + 256 ^ l.length * ofBytes m := by
  induction l with
  | nil => simp [ofBytes]
  | cons x l ih => simp only [List.cons_append, ofBytes, ih, List.length_cons, Nat.pow_succ', Nat.mul_add, Nat.mul_assoc, Nat.add_assoc]

/-- A field read behind whole bytes that are dropped is a field of the number. -/
theorem fld_div_bytes (v n lo k : Nat) : fld (v / 256 ^ n) lo k = fld v (8 * n + lo) k := by
  rw [fld, fld, Nat.div_div_eq_div_mul, Nat.pow_add, Nat.pow_mul]

theorem byteAt_div_bytes (v n k : Nat) : byteAt (v / 256 ^ n) k = fld v (8 * (n + k)) 8 := by
  rw [byteAt, fld_div_bytes, Nat.mul_add]

theorem bytes_pow (n : Nat) : (256 : Nat) ^ n = 2 ^ (8 * n) := by rw [Nat.pow_mul]

/-- Truncation to whole bytes keeps every field that lies inside them. -/
theorem fld_mod_bytes (v n lo k : Nat) (h : lo + k ≤ 8 * n) : fld (v % 256 ^ n) lo k = fld v lo k := by
  apply Nat.eq_of_testBit_eq
  intro i
  rw [bytes_pow]
  simp only [fld, Nat.testBit_mod_two_pow, Nat.testBit_div_two_pow]
  by_cases hi : i < k
  · simp [hi, show i + lo < 8 * n by omega]
  · simp [hi]

theorem bitAt_mod_bytes (v n i : Nat) (h : i < 8 * n) : bitAt (v % 256 ^ n) i = bitAt v i :=
  congrArg (· == 1) (fld_mod_bytes v n i 1 h)

theorem toNat_lt_bytes {n : Nat} (x : BitVec (8 * n)) : x.toNat < 256 ^ n := by
  rw [bytes_pow]
  exact x.isLt

theorem toNat_ofNat_mod_bytes (m n v : Nat) (h : m ≤ n) : (BitVec.ofNat (8 * n) v).toNat % 256 ^ m = v % 256 ^ m := by
  rw [BitVec.toNat_ofNat, ← bytes_pow, Nat.mod_mod_of_dvd _ (Nat.pow_dvd_pow 256 h)]

/-- Adding a power of two to a word in which its bit is clear sets that bit and no other. -/
theorem bitAt_add_two_pow {w : Nat} (x : BitVec w) (i : Nat) (hi : i < w) (h : bitAt x.toNat i = false) (k : Nat) :
    bitAt (BitVec.ofNat w (x.toNat + 2 ^ i)).toNat k = (bitAt x.toNat k || k == i) := by
  have hpow : BitVec.ofNat w (2 ^ i) = BitVec.twoPow w i :=
    BitVec.eq_of_toNat_eq (by rw [BitVec.toNat_ofNat, BitVec.toNat_twoPow])
  have hclear : x &&& BitVec.twoPow w i = 0#w := by
    rw [BitVec.and_twoPow, ← BitVec.testBit_toNat, ← bitAt_eq_testBit, h, if_neg Bool.false_ne_true]
  have hsum : BitVec.ofNat w (x.toNat + 2 ^ i) = x ||| BitVec.twoPow w i := by
    rw [BitVec.ofNat_add, hpow, BitVec.ofNat_toNat, BitVec.setWidth_eq, BitVec.add_eq_or_of_and_eq_zero _ _ hclear]
  rw [hsum, bitAt_eq_testBit, bitAt_eq_testBit, BitVec.testBit_toNat, BitVec.testBit_toNat, BitVec.getLsbD_or, BitVec.getLsbD_twoPow,
    decide_eq_true hi, Bool.true_and, Bool.beq_eq_decide_eq, decide_eq_decide.mpr (eq_comm : i = k ↔ k = i)]

/-! ## Lists -/

theorem nth_map_range {α : Type} (d : α) (n : Nat) (f : Nat → α) (i : Nat) (h : i < n) : nth d ((List.range n).map f) i = f i := by
  simp [nth, h]

/-- Element `k` of piece `g` of a list put together from pieces of `m` elements. -/
theorem getElem?_flatMap_pieces {α β : Type} (F : α → List β) (m : Nat) (l : List α) (hF : ∀ x ∈ l, (F x).length = m) (g k : Nat)
    (hk : k < m) : (l.flatMap F)[m * g + k]? = l[g]?.bind (fun x => (F x)[k]?) := by
  induction l generalizing g with
  | nil => simp
  | cons x l ih =>
    have hx : (F x).length = m := hF x List.mem_cons_self
    cases g with
    | zero => simp [List.getElem?_append_left (hx.symm ▸ hk : k < (F x).length)]
    | succ g =>
      have hi : m * (g + 1) + k - (F x).length = m * g + k := by rw [hx, Nat.mul_succ]; omega
      rw [List.flatMap_cons, List.getElem?_append_right (by rw [hx, Nat.mul_succ]; omega), hi,
        ih fun y hy => hF y (List.mem_cons_of_mem _ hy), List.getElem?_cons_succ]

theorem nth_flatMap_pieces {α : Type} (d : α) (F : Nat → List α) (n m g k : Nat) (hF : ∀ i, (F i).length = m) (hg : g < n)
    (hk : k < m) : nth d ((List.range n).flatMap F) (m * g + k) = nth d (F g) k := by
  simp [nth, getElem?_flatMap_pieces F m _ (fun i _ => hF i) g k hk, hg]

theorem zipIdx_map_range {α : Type} (n : Nat) (f : Nat → α) : ((List.range n).map f).zipIdx = (List.range n).map (fun i => (f i, i)) := by
  apply List.ext_getElem <;> simp

/-- The first `n` pieces of `m` bytes of a byte string. -/
theorem chunksOf_toBytes (m n len v : Nat) (hm : 0 < m) (h : m * n ≤ len) :
    chunksOf m n (toBytes len v) = (List.range n).map (fun g => toBytes m (v / 256 ^ (m * g))) := by
  induction n generalizing len v with
  | zero => rfl
  | succ n ih =>
    have hfit : m ≤ len := Nat.le_trans (Nat.le_mul_of_pos_right m n.succ_pos) h
    have hne : (toBytes len v).isEmpty = false := by
      rw [← Bool.not_eq_true, List.isEmpty_iff_length_eq_zero, length_toBytes]; omega
    have hpow (g : Nat) : 256 ^ m * 256 ^ (m * g) = 256 ^ (m * (g + 1)) := by rw [← Nat.pow_add, Nat.mul_succ, Nat.add_comm]
    have hlen : m * n ≤ len - m := by rw [Nat.mul_succ] at h; omega
    rw [chunksOf, hne, toBytes_take _ _ _ hfit, toBytes_drop, if_neg Bool.false_ne_true, ih _ _ hlen, List.range_succ_eq_map]
    simp [Nat.div_div_eq_div_mul, hpow]

@[simp] theorem length_cutAt (v : Nat) (l : List Int) : (cutAt v l).length = l.length := by simp [cutAt]

theorem nth_cutAt (v : Nat) (l : List Int) (i : Nat) : nth 0 (cutAt v l) i = if i < v then nth 0 l i else 0 := by
  cases h : l[i]? <;> simp [nth, cutAt, h]

/-! ## The anomaly counters (R85) -/

@[simp] theorem anomaly_hw (cl : Option Nat) (sub n : Nat) (s : State) : (anomaly cl sub n s).hw = s.hw := by
  unfold anomaly
  split
  · rfl
  · cases cl <;> rfl

/-- An anomaly of one kind leaves the counters of the other kinds alone. -/
theorem obj_anomaly_other (cl : Option Nat) (sub n j : Nat) (s : State) (hj : j ≠ sub) (h1 : j ≠ 1) (hlt : j < 256) :
    obj (anomaly cl sub n s) (key 0xA020 j) = obj s (key 0xA020 j) := by
  have hsub : key 0xA020 j ≠ key 0xA020 sub := by simp only [key]; omega
  have htotal : key 0xA020 j ≠ key 0xA020 1 := by simp only [key]; omega
  have hcl (c : Nat) : key 0xA020 j ≠ key 0xA021 (c + 1) := by simp only [key]; omega
  unfold anomaly
  split
  · rfl
  · cases cl <;> simp [obj_bump_other, hsub, htotal, hcl]

/-- Anomalies of one kind advance the counter of their kind. -/
theorem advanced_anomaly (cl : Option Nat) (sub n : Nat) (s : State) (hn : 0 < n) (h1 : sub ≠ 1) (hlt : sub < 256) :
    Advanced (key 0xA020 sub) n s (anomaly cl sub n s) := by
  have htotal : key 0xA020 sub ≠ key 0xA020 1 := by simp only [key]; omega
  have hcl (c : Nat) : key 0xA020 sub ≠ key 0xA021 (c + 1) := by simp only [key]; omega
  unfold Advanced anomaly
  rw [if_neg (Nat.ne_of_gt hn)]
  cases cl <;> simp [obj_bump_other, htotal, hcl]

theorem countAnoms_advances_code (cl : Option Nat) (a : Anoms) (s : State) (h : 0 < a.code) :
    Advanced (key 0xA020 3) a.code s (countAnoms cl a s) := by
  have hadv := advanced_anomaly cl 3 a.code (anomaly cl 2 a.header s) h (by decide) (by decide)
  simpa [Advanced, countAnoms, obj_anomaly_other] using hadv

theorem countAnoms_advances_intMin (cl : Option Nat) (a : Anoms) (s : State) (h : 0 < a.intMin) :
    Advanced (key 0xA020 5) a.intMin s (countAnoms cl a s) := by
  have hadv := advanced_anomaly cl 5 a.intMin (anomaly cl 4 a.overcap (anomaly cl 3 a.code (anomaly cl 2 a.header s))) h
    (by decide) (by decide)
  simpa [Advanced, countAnoms, obj_anomaly_other] using hadv

/-! ## The groups of a container (R62, R63) -/

/-- The bytes of group g (R62). -/
def groupBytes (f : Fmt) (b : Block) (g : Nat) : List Nat := toBytes f.bytes (b.toNat / 256 ^ (16 + f.bytes * g))

/-- The number of valid elements of group g (R63). -/
def groupValid (f : Fmt) (count g : Nat) : Nat := min f.group (count - f.group * g)

/-- What group g of a container expands to. -/
def groupOut (f : Fmt) (tr : Bool) (count : Nat) (b : Block) (g : Nat) : GroupOut :=
  if groupValid f count g == 0 then { vals := List.replicate f.group 0 }
  else decGroup f (rotationOf f b) tr (groupValid f count g) (groupBytes f b g)

theorem groupOut_of_empty {f : Fmt} {count g : Nat} (h : groupValid f count g = 0) (tr : Bool) (b : Block) :
    groupOut f tr count b g = { vals := List.replicate f.group 0 } := by
  rw [groupOut, h]
  rfl

theorem groupOut_of_valid {f : Fmt} {count g : Nat} (h : groupValid f count g ≠ 0) (tr : Bool) (b : Block) :
    groupOut f tr count b g = decGroup f (rotationOf f b) tr (groupValid f count g) (groupBytes f b g) := by
  rw [groupOut, if_neg (by simpa using h)]

theorem chunksOf_payloadOf (f : Fmt) (b : Block) (hb : 0 < f.bytes) (hle : f.bytes * f.groups ≤ 224) :
    chunksOf f.bytes f.groups (payloadOf b) = (List.range f.groups).map (groupBytes f b) := by
  rw [payloadOf, blockBytes, toBytes_drop, toBytes_take _ _ _ (by decide), chunksOf_toBytes _ _ _ _ hb hle]
  simp [groupBytes, Nat.div_div_eq_div_mul, Nat.pow_add]

/-- A container whose payload is inspected expands group by group, and an anomaly counts once for each group that shows it (R83). -/
theorem expandBlock_groups (f : Fmt) (tr : Bool) (count : Nat) (b : Block) (hb : 0 < f.bytes) (hle : f.bytes * f.groups ≤ 224)
    (hz : hZeroChan b = false) :
    (expandBlock f tr count b).vals = (List.range f.groups).flatMap (fun g => (groupOut f tr count b g).vals)
    ∧ (expandBlock f tr count b).anoms.code = ((List.range f.groups).filter (fun g => (groupOut f tr count b g).code)).length
    ∧ (expandBlock f tr count b).anoms.intMin = ((List.range f.groups).filter (fun g => (groupOut f tr count b g).intMin)).length := by
  simp only [expandBlock, hz, Bool.false_eq_true, if_false, chunksOf_payloadOf f b hb hle, zipIdx_map_range, List.map_map,
    List.flatMap_map, List.filter_map, List.length_map]
  exact ⟨rfl, rfl, rfl⟩

end Sys2Proof.Machine
end

section
/-! The groups of AI8 and of the 2:4 formats: what each expands to and which anomaly it shows. -/

namespace Sys2Proof.Machine

/-! ## AI8 groups (R75) -/

/-- The row of Table 3.1 for AI8. -/
def ai8Fmt : Fmt := ⟨0x10, 32, 32, 7, 224, 224⟩

theorem fmtOf_ai8 : fmtOf 0x10 = some ai8Fmt := rfl

theorem int8Of_eq (c : Nat) : int8Of c = if c = 0x80 then -127 else (BitVec.ofNat 8 c).toInt := by
  simp only [int8Of, sint, BitVec.toInt_ofNat', beq_iff_eq]
  split
  · rfl
  · split <;> simp [Int.bmod] <;> omega

/-- Element k of group g of an AI8 payload is byte 32g + k. -/
theorem groupBytes_ai8 (b : Block) (g : Nat) :
    groupBytes ai8Fmt b g = (List.range 32).map (fun k => fld b.toNat (8 * (16 + (32 * g + k))) 8) := by
  simp [groupBytes, ai8Fmt, toBytes_eq_map, byteAt_div_bytes, Nat.add_assoc]

theorem groupOut_ai8 (tr : Bool) (count : Nat) (b : Block) (g : Nat) (h : groupValid ai8Fmt count g ≠ 0) :
    groupOut ai8Fmt tr count b g = decAi8 (groupValid ai8Fmt count g) (groupBytes ai8Fmt b g) :=
  groupOut_of_valid h tr b

theorem length_groupOut_ai8 (tr : Bool) (count : Nat) (b : Block) (g : Nat) : (groupOut ai8Fmt tr count b g).vals.length = 32 := by
  by_cases h : groupValid ai8Fmt count g = 0
  · simp [groupOut_of_empty h, show ai8Fmt.group = 32 from rfl]
  · simp [groupOut_ai8 tr count b g h, decAi8, groupBytes_ai8]

theorem nth_groupOut_ai8 (tr : Bool) (count : Nat) (b : Block) (g k : Nat) (hk : k < 32) (hv : 32 * g + k < count) :
    nth 0 (groupOut ai8Fmt tr count b g).vals k = int8Of (fld b.toNat (8 * (16 + (32 * g + k))) 8) := by
  have hvalid : k < groupValid ai8Fmt count g := by simp only [groupValid, ai8Fmt]; omega
  rw [groupOut_ai8 tr count b g (by omega), decAi8, nth_cutAt, if_pos hvalid, groupBytes_ai8, ← List.map_take, List.take_range,
    List.map_map, nth_map_range 0 (min 32 32) _ k hk]
  rfl

theorem groupOut_ai8_intMin (tr : Bool) (count : Nat) (b : Block) (g : Nat) :
    (groupOut ai8Fmt tr count b g).intMin =
      (List.range 32).any (fun k => decide (32 * g + k < count) && fld b.toNat (8 * (16 + (32 * g + k))) 8 == 0x80) := by
  have hvalid (k : Nat) : k < groupValid ai8Fmt count g ↔ k < 32 ∧ 32 * g + k < count := by simp only [groupValid, ai8Fmt]; omega
  by_cases h : groupValid ai8Fmt count g = 0
  · simp only [h, Nat.not_lt_zero, false_iff, not_and] at hvalid
    simp +contextual [groupOut_of_empty h, hvalid]
  · have hmin : min (groupValid ai8Fmt count g) 32 = groupValid ai8Fmt count g := by simp only [groupValid, ai8Fmt]; omega
    rw [groupOut_ai8 tr count b g h, Bool.eq_iff_iff]
    simp only [decAi8, groupBytes_ai8, ← List.map_take, List.take_range, hmin, List.any_map, List.any_eq_true, List.mem_range, hvalid,
      Function.comp_apply, Bool.and_eq_true, decide_eq_true_eq, and_assoc]

theorem nth_expandBlock_ai8 (tr : Bool) (count : Nat) (b : Block) (hz : hZeroChan b = false) (e : Nat) (he : e < count)
    (hcap : e < 224) : nth 0 (expandBlock ai8Fmt tr count b).vals e = int8Of (fld b.toNat (8 * (16 + e)) 8) := by
  obtain ⟨hvals, -, -⟩ := expandBlock_groups ai8Fmt tr count b (by decide) (by decide) hz
  conv => lhs; rw [hvals, ← Nat.div_add_mod e 32]
  rw [nth_flatMap_pieces 0 _ ai8Fmt.groups 32 (e / 32) (e % 32) (length_groupOut_ai8 tr count b)
      (show e / 32 < 7 by omega) (by omega),
    nth_groupOut_ai8 tr count b _ _ (by omega) (by omega), Nat.div_add_mod]

/-- FA_INT_MIN counts each group that shows a code 0x80 below VALID_COUNT. -/
theorem expandBlock_ai8_intMin (tr : Bool) (count : Nat) (b : Block) (hz : hZeroChan b = false) :
    (expandBlock ai8Fmt tr count b).anoms.intMin = ((List.range 7).filter (fun g => (List.range 32).any (fun k =>
      decide (32 * g + k < count) && fld b.toNat (8 * (16 + (32 * g + k))) 8 == 0x80))).length := by
  obtain ⟨-, -, hintMin⟩ := expandBlock_groups ai8Fmt tr count b (by decide) (by decide) hz
  simp only [hintMin, groupOut_ai8_intMin]
  rfl

/-! ## 2:4 groups (R68, R70) -/

/-- The rows of Table 3.1 for WS24 and WS24T. -/
def ws24Fmt (code : Nat) : Fmt := ⟨code, 64, 13, 17, 1088, 544⟩

theorem fmtOf_ws24 : fmtOf 0x04 = some (ws24Fmt 0x04) := rfl

theorem fmtOf_ws24t : fmtOf 0x05 = some (ws24Fmt 0x05) := rfl

/-- The code of quad q in group g. -/
def quadCode (b : Block) (g q : Nat) : Nat := fld b.toNat (8 * (16 + 13 * g) + 6 * q) 6

@[simp] theorem length_quadOf (code : Nat) : (quadOf code).length = 4 := by
  unfold quadOf
  split <;> simp

theorem nth_quadOf_unused (code : Nat) (h : 0x36 ≤ code) (k : Nat) : nth 0 (quadOf code) k = 0 := by
  have hzero : quadOf code = List.replicate 4 0 := if_pos h
  rw [hzero, nth, List.getElem?_replicate]
  split <;> rfl

/-- The quad codes of a group as its decoder takes them: one wholly at or beyond V is not inspected (R63). -/
def groupCodes (b : Block) (v g : Nat) : List Nat := (List.range 16).map (fun q => if 4 * q < v then quadCode b g q else 0)

theorem decWs24_groupBytes (c v : Nat) (b : Block) (g : Nat) :
    decWs24 false v (groupBytes (ws24Fmt c) b g) =
      { vals := cutAt v ((groupCodes b v g).flatMap quadOf), code := (groupCodes b v g).any (· > 0x35) } := by
  have hword : ofBytes ((groupBytes (ws24Fmt c) b g).take 12) = b.toNat / 256 ^ (16 + 13 * g) % 256 ^ 12 := by
    rw [groupBytes, toBytes_take _ _ _ (show 12 ≤ (ws24Fmt c).bytes from Nat.le_succ 12), ofBytes_toBytes]
    rfl
  have hcodes : (List.range 16).map (fun q => if 4 * q < v then fld (ofBytes ((groupBytes (ws24Fmt c) b g).take 12)) (6 * q) 6 else 0)
      = groupCodes b v g := by
    refine List.map_congr_left fun q hq => ?_
    have hq : q < 16 := List.mem_range.mp hq
    rw [hword, fld_mod_bytes _ _ _ _ (by omega), fld_div_bytes, quadCode]
  simp only [decWs24, hcodes, Bool.false_eq_true, if_false]

section
-- A stored read of a 2:4 format: WS24, or WS24T not transposed.
variable {c : Nat} {tr : Bool} (hdec : ∀ rot v grp, decGroup (ws24Fmt c) rot tr v grp = decWs24 false v grp)
include hdec

theorem groupOut_ws24 (count : Nat) (b : Block) (g : Nat) (h : groupValid (ws24Fmt c) count g ≠ 0) :
    groupOut (ws24Fmt c) tr count b g = decWs24 false (groupValid (ws24Fmt c) count g) (groupBytes (ws24Fmt c) b g) := by
  rw [groupOut_of_valid h, hdec]

theorem length_groupOut_ws24 (count : Nat) (b : Block) (g : Nat) : (groupOut (ws24Fmt c) tr count b g).vals.length = 64 := by
  by_cases h : groupValid (ws24Fmt c) count g = 0
  · simp [groupOut_of_empty h, show (ws24Fmt c).group = 64 from rfl]
  · rw [groupOut_ws24 hdec count b g h, decWs24_groupBytes, length_cutAt, groupCodes, List.length_flatMap, List.map_map]
    simp only [Function.comp_def, length_quadOf]
    rfl

theorem nth_groupOut_ws24 (count : Nat) (b : Block) (g q k : Nat) (hq : q < 16) (hk : k < 4) (hv : 64 * g + 4 * q + k < count) :
    nth 0 (groupOut (ws24Fmt c) tr count b g).vals (4 * q + k) = nth 0 (quadOf (quadCode b g q)) k := by
  have hvalid : 4 * q + k < groupValid (ws24Fmt c) count g := by simp only [groupValid, ws24Fmt]; omega
  rw [groupOut_ws24 hdec count b g (by omega), decWs24_groupBytes, nth_cutAt, if_pos hvalid, groupCodes, List.flatMap_map,
    nth_flatMap_pieces 0 _ 16 4 q k (fun _ => length_quadOf _) hq hk, if_pos (by omega)]

theorem groupOut_ws24_code (count : Nat) (b : Block) (g : Nat) :
    (groupOut (ws24Fmt c) tr count b g).code =
      (List.range 16).any (fun q => decide (64 * g + 4 * q < count) && decide (0x36 ≤ quadCode b g q)) := by
  have hvalid (q : Nat) (hq : q < 16) : 4 * q < groupValid (ws24Fmt c) count g ↔ 64 * g + 4 * q < count := by
    simp only [groupValid, ws24Fmt]; omega
  by_cases h : groupValid (ws24Fmt c) count g = 0
  · simp only [h, Nat.not_lt_zero, false_iff] at hvalid
    simp +contextual [groupOut_of_empty h, hvalid]
  · rw [groupOut_ws24 hdec count b g h, decWs24_groupBytes, groupCodes, List.any_map, Bool.eq_iff_iff, List.any_eq_true, List.any_eq_true]
    refine exists_congr fun q => and_congr_right fun hq => ?_
    have hquad := hvalid q (List.mem_range.mp hq)
    have hunused : 0x35 < quadCode b g q ↔ 0x36 ≤ quadCode b g q := Iff.rfl
    by_cases hlt : 64 * g + 4 * q < count <;> simp [hquad, hlt, hunused]

theorem nth_expandBlock_ws24 (count : Nat) (b : Block) (hz : hZeroChan b = false) (g q k : Nat) (hg : g < 17) (hq : q < 16)
    (hk : k < 4) (hv : 64 * g + 4 * q + k < count) :
    nth 0 (expandBlock (ws24Fmt c) tr count b).vals (64 * g + 4 * q + k) = nth 0 (quadOf (quadCode b g q)) k := by
  obtain ⟨hvals, -, -⟩ := expandBlock_groups (ws24Fmt c) tr count b (show 0 < 13 by decide) (show 13 * 17 ≤ 224 by decide) hz
  rw [hvals, Nat.add_assoc,
    nth_flatMap_pieces 0 _ (ws24Fmt c).groups 64 g (4 * q + k) (length_groupOut_ws24 hdec count b) hg (by omega),
    nth_groupOut_ws24 hdec count b g q k hq hk hv]

/-- FA_CODE counts each group that shows an unused code in a quad that begins below VALID_COUNT. -/
theorem expandBlock_ws24_code (count : Nat) (b : Block) (hz : hZeroChan b = false) :
    (expandBlock (ws24Fmt c) tr count b).anoms.code = ((List.range 17).filter (fun g => (List.range 16).any (fun q =>
      decide (64 * g + 4 * q < count) && decide (0x36 ≤ quadCode b g q)))).length := by
  obtain ⟨-, hcode, -⟩ := expandBlock_groups (ws24Fmt c) tr count b (show 0 < 13 by decide) (show 13 * 17 ≤ 224 by decide) hz
  simp only [hcode, groupOut_ws24_code hdec]
  rfl

end

end Sys2Proof.Machine
end

section
/-! The check code: what the decoder of a codeword answers, what a container's decoder passes on, what marking changes. -/

namespace Sys2Proof.Machine

/-! ## One codeword (R44, R47) -/

theorem syndrome_genPoly (i : Nat) (h : i < 8) : syndrome (1 :: genPoly) i = 0 := by
  have hroots : ∀ j < 8, syndrome (1 :: genPoly) j = 0 := by decide +kernel
  exact hroots i h

theorem mem_gfPowers_pos_lt {n k a : Nat} {p : Nat × Nat} (h : p ∈ gfPowers n k a) : p.1 < k + n := by
  induction n generalizing k a with
  | zero => simp [gfPowers] at h
  | succ n ih =>
    rcases List.mem_cons.mp h with rfl | h
    · exact Nat.lt_add_of_pos_right n.succ_pos
    · have := ih h; omega

theorem pair_of_filter {α : Type} {l : List α} {P : α → Bool} {p q : α} (h : l.filter P = [p, q]) : p ∈ l ∧ q ∈ l := by
  have hsub (x : α) (hx : x ∈ [p, q]) : x ∈ l := by
    rw [← h] at hx
    exact (List.mem_filter.mp hx).1
  exact ⟨hsub p (by simp), hsub q (by simp)⟩

/-- The candidate pattern has weight at most two and lies at x^0 to x^127. -/
theorem candidate_bounds (s0 s1 s2 s3 : Nat) :
    (candidate s0 s1 s2 s3).length ≤ 2 ∧ ∀ p ∈ candidate s0 s1 s2 s3, p.1 < 128 := by
  unfold candidate
  dsimp only
  split
  case h_1 p hp =>
    have hpos := mem_gfPowers_pos_lt (List.mem_of_find?_eq_some hp)
    simpa using hpos
  case h_2 =>
    split
    · simp
    · split
      case h_1 p q hpq =>
        obtain ⟨hp, hq⟩ := pair_of_filter hpq
        simpa using ⟨mem_gfPowers_pos_lt hp, mem_gfPowers_pos_lt hq⟩
      case h_2 => simp

theorem patternOk_iff (isA : Bool) (e : List (Nat × Nat)) (syn : List Nat) :
    patternOk isA e syn = true ↔
      e ≠ [] ∧ (∀ p ∈ e, p.2 ≠ 0) ∧ (List.range 8).map (patternSyndrome e) = syn
        ∧ (isA = true → ∀ p ∈ e, p.1 = 127 → p.2 / 128 ≠ 1) := by
  cases isA <;> simp [patternOk, and_assoc]

/-- What the decoder of a codeword answers (R47): the word itself without errors, a corrected one, or uncorrectable. -/
theorem decodeWord_cases (isA : Bool) (r : List Nat) :
    ((∀ i < 8, syndrome r i = 0) ∧ decodeWord isA r = .ok r 0)
    ∨ (∃ e, decodeWord isA r = .ok (fixSymbols r e) e.length ∧ e.length ≤ 2 ∧ (∀ p ∈ e, p.1 < 128)
        ∧ patternOk isA e ((List.range 8).map (syndrome r)) = true)
    ∨ decodeWord isA r = .bad := by
  unfold decodeWord
  dsimp only
  split
  case isTrue hzero => exact .inl ⟨by simpa using hzero, rfl⟩
  case isFalse =>
    obtain ⟨hlen, hpos⟩ := candidate_bounds (nth 0 ((List.range 8).map (syndrome r)) 0) (nth 0 ((List.range 8).map (syndrome r)) 1)
      (nth 0 ((List.range 8).map (syndrome r)) 2) (nth 0 ((List.range 8).map (syndrome r)) 3)
    split
    case isTrue hok => exact .inr (.inl ⟨_, rfl, hlen, hpos, hok⟩)
    case isFalse => exact .inr (.inr rfl)

theorem decodeWord_of_syndromes_zero (isA : Bool) (r : List Nat) (h : ∀ i < 8, syndrome r i = 0) : decodeWord isA r = .ok r 0 := by
  have hzero : ((List.range 8).map (syndrome r)).all (· == 0) = true := by simpa using h
  simp only [decodeWord, hzero, if_true]

/-- A codeword in which nothing was corrected is passed on as it was. -/
theorem eq_of_decodeWord_ok_zero {isA : Bool} {r l : List Nat} (h : decodeWord isA r = .ok l 0) : l = r := by
  rcases decodeWord_cases isA r with ⟨-, hd⟩ | ⟨e, hd, -, -, hok⟩ | hd
  · rw [hd] at h; injection h with hl; exact hl.symm
  · obtain ⟨hne, -⟩ := (patternOk_iff _ _ _).mp hok
    rw [hd] at h; injection h with _ hlen; exact absurd (List.length_eq_zero_iff.mp hlen) hne
  · rw [hd] at h; contradiction

/-- A corrected codeword had a pattern of one or two symbols subtracted that has its syndromes (R47). -/
theorem pattern_of_decodeWord_ok {isA : Bool} {r l : List Nat} {n : Nat} (h : decodeWord isA r = .ok l n) (hn : 0 < n) :
    n ≤ 2 ∧ ∃ e : List (Nat × Nat), e.length = n ∧ l = fixSymbols r e
      ∧ (∀ p ∈ e, p.1 < 128 ∧ p.2 ≠ 0 ∧ (isA = true → p.1 = 127 → p.2 / 128 ≠ 1))
      ∧ ∀ i, i < 8 → patternSyndrome e i = syndrome r i := by
  rcases decodeWord_cases isA r with ⟨-, hd⟩ | ⟨e, hd, hlen, hpos, hok⟩ | hd
  · rw [hd] at h; injection h with _ h0; exact absurd h0 (Nat.ne_of_lt hn)
  · obtain ⟨-, hval, hsyn, hA⟩ := (patternOk_iff _ _ _).mp hok
    rw [hd] at h
    injection h with hl hcount
    refine ⟨hcount ▸ hlen, e, hcount, hl.symm, fun p hp => ⟨hpos p hp, hval p hp, fun ha => hA ha p hp⟩, fun i hi => ?_⟩
    exact List.map_eq_map_iff.mp hsyn i (List.mem_range.mpr hi)
  · rw [hd] at h; contradiction

/-! ## A container (R51, R52) -/

theorem interleave_map_range (n : Nat) (f : Nat → Nat) :
    interleave ((List.range n).map (fun j => f (2 * j))) ((List.range n).map (fun j => f (2 * j + 1))) = (List.range (2 * n)).map f := by
  induction n generalizing f with
  | zero => rfl
  | succ n ih =>
    have hrest := ih (fun i => f (i + 2))
    simp only [List.range_succ_eq_map, Nat.mul_succ, List.map_cons, List.map_map, Function.comp_def, interleave] at hrest ⊢
    simpa [Nat.mul_succ, Nat.add_right_comm] using hrest

/-- Byte i of a container as the check code covers it: header bit [7] reads as 0 (R46). -/
def codedByte (l : List Nat) (i : Nat) : Nat := if i = 0 then nth 0 l 0 % 128 else nth 0 l i

theorem symbolsOf_zero (l : List Nat) : symbolsOf l 0 = (List.range 128).map (fun j => codedByte l (2 * j)) := by
  refine List.map_congr_left fun j _ => ?_
  cases j <;> simp [codedByte]

theorem symbolsOf_one (l : List Nat) : symbolsOf l 1 = (List.range 128).map (fun j => codedByte l (2 * j + 1)) := by
  simp [symbolsOf, codedByte]

/-- Both codewords of a container, put together again, are its bytes with header bit [7] as 0. -/
theorem interleave_symbolsOf (v : Nat) :
    interleave (symbolsOf (toBytes 256 v) 0) (symbolsOf (toBytes 256 v) 1) = v % 128 :: toBytes 255 (v / 256) := by
  have htail : (toBytes 256 v) = v % 256 :: toBytes 255 (v / 256) := rfl
  rw [symbolsOf_zero, symbolsOf_one, interleave_map_range, List.range_succ_eq_map, List.map_cons, List.map_map]
  refine List.cons_eq_cons.mpr ⟨?_, ?_⟩
  · simp [codedByte, htail, nth]
  · rw [toBytes_eq_map 255]
    refine List.map_congr_left fun i hi => ?_
    have hi : i < 255 := List.mem_range.mp hi
    simp [codedByte, htail, nth, toBytes_eq_map, hi]

theorem b2n_bitAt (v i : Nat) : b2n (bitAt v i) = v / 2 ^ i % 2 := by
  simp only [b2n, bitAt, beq_iff_eq]
  split <;> omega

/-- A container in which neither codeword had anything corrected is put together as received. -/
theorem reassemble_symbolsOf (b : Block) :
    reassemble b (.ok (symbolsOf (blockBytes b) 0) 0) (.ok (symbolsOf (blockBytes b) 1) 0) = b := by
  have hb : b.toNat / 256 < 256 ^ 255 := by
    apply Nat.div_lt_of_lt_mul
    rw [← Nat.pow_succ']
    exact toNat_lt_bytes (n := 256) b
  have hnum : ofBytes (interleave (symbolsOf (blockBytes b) 0) (symbolsOf (blockBytes b) 1)) + b2n (hProvisional b) * 128 = b.toNat := by
    rw [blockBytes, interleave_symbolsOf, ofBytes, ofBytes_toBytes, Nat.mod_eq_of_lt hb, hProvisional, b2n_bitAt]
    omega
  rw [reassemble, hnum, BitVec.ofNat_toNat, BitVec.setWidth_eq]

theorem decodeBlock_of_error_free (b : Block) (x y : List Nat) (ha : decodeWord true (symbolsOf (blockBytes b) 0) = .ok x 0)
    (hc : decodeWord false (symbolsOf (blockBytes b) 1) = .ok y 0) :
    decodeBlock b = { block := b, fixed := 0, bad := false, recheck := false, detail := 0 } := by
  obtain rfl := eq_of_decodeWord_ok_zero ha
  obtain rfl := eq_of_decodeWord_ok_zero hc
  simp [decodeBlock, ha, hc, reassemble_symbolsOf, CwOut.symbols, CwOut.recheckFails, CwOut.code]

/-- A container with an uncorrectable codeword is passed on marked. -/
theorem decodeBlock_of_bad (b : Block)
    (h : decodeWord true (symbolsOf (blockBytes b) 0) = .bad ∨ decodeWord false (symbolsOf (blockBytes b) 1) = .bad) :
    (decodeBlock b).bad = true ∧ ∃ r, (decodeBlock b).block = markPoison r := by
  unfold decodeBlock
  dsimp only
  split
  case h_1 ha hc => simp [ha, hc] at h
  case h_2 => exact ⟨rfl, _, rfl⟩

theorem blockOf_mod_bytes (l : List Nat) (m : Nat) (h : m ≤ 256) : (blockOf l).toNat % 256 ^ m = ofBytes l % 256 ^ m :=
  toNat_ofNat_mod_bytes m 256 (ofBytes l) h

/-- Computing the check bytes leaves the 240 data bytes as they are (R45). -/
theorem encodeCheck_data (b : Block) : (encodeCheck b).toNat % 256 ^ 240 = b.toNat % 256 ^ 240 := by
  rw [encodeCheck, blockOf_mod_bytes _ _ (by decide), blockBytes, toBytes_take _ _ _ (by decide), ofBytes_append, ofBytes_toBytes,
    length_toBytes, Nat.add_mul_mod_self_left, Nat.mod_mod]

theorem bitAt_encodeCheck (b : Block) (k : Nat) (hk : k < 1920) : bitAt (encodeCheck b).toNat k = bitAt b.toNat k := by
  rw [← bitAt_mod_bytes _ 240 k hk, encodeCheck_data, bitAt_mod_bytes _ 240 k hk]

/-- Marking sets POISON and no other bit of the data bytes (R52). -/
theorem bitAt_markPoison (b : Block) (k : Nat) (hk : k < 1920) : bitAt (markPoison b).toNat k = (bitAt b.toNat k || k == 6) := by
  rw [markPoison, bitAt_encodeCheck _ k hk]
  split
  case isTrue h =>
    by_cases h6 : k = 6
    · subst h6; simpa [hPoison] using h
    · simp [h6]
  case isFalse h => exact bitAt_add_two_pow b 6 (by decide) (by simpa [hPoison] using h) k

theorem hPoison_markPoison (b : Block) : hPoison (markPoison b) = true := by
  rw [hPoison, bitAt_markPoison b 6 (by decide)]
  simp

end Sys2Proof.Machine

/-! ## The statement -/

namespace Sys2Proof

open Machine

/-- Settles O32: the elements of AI8 and of 2:4 groups with their anomalies, the counters they advance, the roots of g(x), what the
decoder of a codeword answers, and what a container's decoder passes on and marks. -/
theorem elementCodes : Obligations.ElementCodes := by
  refine ⟨fun b tr count f hf hz => ?ai8, fun b tr count f hf hz => ?ws24,
    fun c a s => ⟨countAnoms_advances_code _ a s, countAnoms_advances_intMin _ a s⟩, syndrome_genPoly,
    fun isA r l n => ⟨decodeWord_of_syndromes_zero isA r, pattern_of_decodeWord_ok⟩,
    fun b => ⟨decodeBlock_of_error_free b, fun hbad => ?marked, bitAt_markPoison b⟩⟩
  case ai8 =>
    obtain rfl : ai8Fmt = f := Option.some.inj (fmtOf_ai8.symm.trans hf)
    refine ⟨fun e he hcap => ?_, expandBlock_ai8_intMin tr count b hz⟩
    rw [nth_expandBlock_ai8 tr count b hz e he hcap, int8Of_eq]
  case ws24 =>
    obtain ⟨c, rfl, hdec⟩ : ∃ c, f = ws24Fmt c ∧ ∀ rot v grp, decGroup (ws24Fmt c) rot tr v grp = decWs24 false v grp := by
      rcases hf with hf | ⟨hf, rfl⟩
      · exact ⟨0x04, Option.some.inj (hf.symm.trans fmtOf_ws24), fun _ _ _ => rfl⟩
      · exact ⟨0x05, Option.some.inj (hf.symm.trans fmtOf_ws24t), fun _ _ _ => rfl⟩
    refine ⟨fun g q k hg hq hk hv => ?_, expandBlock_ws24_code hdec count b hz⟩
    rw [nth_expandBlock_ws24 hdec count b hz g q k hg hq hk hv]
    exact ⟨fun hunused => nth_quadOf_unused _ hunused k, fun _ => rfl⟩
  case marked =>
    obtain ⟨hb, r, hr⟩ := decodeBlock_of_bad b hbad
    exact ⟨hb, hr ▸ hPoison_markPoison r⟩

end Sys2Proof
end

section
/-! The accumulator's update (R201), the step search (R97, R101) and the quantiser (R102, R103). -/

namespace Sys2Proof.Machine

/-! ## Accumulator updates (R201) -/

theorem accSat_iff (a : Word) : accSat a = true ↔ a = 0x7FFFFFFFFFFFFFFF ∨ a = 0x8000000000000001 := by
  have htop : (0x7FFFFFFFFFFFFFFF : Word).toInt = accMax := by decide
  have hbottom : (0x8000000000000001 : Word).toInt = -accMax := by decide
  rw [accSat, Bool.or_eq_true, beq_iff_eq, beq_iff_eq, ← hbottom, ← htop, BitVec.toInt_inj, BitVec.toInt_inj]

theorem accUpdate_poison {old : Word} {p : Bool} (h : old = accPois ∨ p = true) (upd : Int) (sat : Bool) :
    accUpdate old upd p sat = accPois :=
  if_pos (by simpa using h)

/-- Past the poison rule an update goes by the saturation of the two words. -/
theorem accUpdate_of_not_poison {old : Word} (h : old ≠ accPois) (upd : Int) (sat : Bool) :
    accUpdate old upd false sat =
      if accSat old then old else if sat then BitVec.ofInt 64 upd
      else BitVec.ofInt 64 (max (-accMax) (min accMax (old.toInt + upd))) := by
  have hpois : (old == accPois || false) = false := by simpa using h
  unfold accUpdate
  rw [hpois, if_neg Bool.false_ne_true]
  have hmax : accMax = 2 ^ 63 - 1 := rfl
  congr 2
  dsimp only
  split
  case isTrue htop => congr; omega
  case isFalse htop =>
    split
    case isTrue hbottom => congr; omega
    case isFalse hbottom => congr; omega

/-- A number within ±(2^63 − 1) is its word's value. -/
theorem toInt_ofInt_clamped (x : Int) : (BitVec.ofInt 64 (max (-accMax) (min accMax x))).toInt = max (-accMax) (min accMax x) := by
  have hmax : accMax = 2 ^ 63 - 1 := rfl
  exact BitVec.toInt_ofInt_eq_self (by decide) (by omega) (by omega)

theorem accSaturates_iff (old : Word) (upd : Int) (p sat : Bool) :
    accSaturates old upd p sat = true ↔
      old ≠ accPois ∧ p = false ∧ accSat old = false ∧ sat = false ∧ (accMax ≤ old.toInt + upd ∨ old.toInt + upd ≤ -accMax) := by
  simp [accSaturates, and_assoc]

/-! ## Exact magnitudes (R97) -/

/-- A magnitude as a multiple of 2^z, for z up to its exponent. -/
def Dyad.at (d : Dyad) (z : Int) : Nat := d.m * 2 ^ (d.x - z).toNat

/-- Over a common exponent the order of magnitudes is the order of natural numbers. -/
theorem Dyad.le_iff_at {a b : Dyad} {z : Int} (ha : z ≤ a.x) (hb : z ≤ b.x) : a.le b = true ↔ a.at z ≤ b.at z := by
  have hsplit (m : Nat) {x y : Int} (hx : z ≤ x) (hxy : x ≤ y) :
      m * 2 ^ (y - z).toNat = m * 2 ^ (y - x).toNat * 2 ^ (x - z).toNat := by
    rw [Nat.mul_assoc, ← Nat.pow_add]
    congr
    omega
  unfold Dyad.le Dyad.at
  split
  case isTrue h => rw [hsplit b.m ha h, Nat.mul_le_mul_right_iff (Nat.two_pow_pos _), decide_eq_true_iff]
  case isFalse h =>
    rw [hsplit a.m hb (Int.le_of_lt (Int.not_le.1 h)), Nat.mul_le_mul_right_iff (Nat.two_pow_pos _), decide_eq_true_iff]

theorem Dyad.not_le_iff_at {a b : Dyad} {z : Int} (ha : z ≤ a.x) (hb : z ≤ b.x) : a.le b = false ↔ b.at z < a.at z := by
  rw [← Bool.not_eq_true, Dyad.le_iff_at ha hb, Nat.not_le]

/-- Only the difference of the exponents matters. -/
theorem Dyad.le_shift (m n : Nat) {x y x' y' : Int} (h : x' - y' = x - y) : Dyad.le ⟨m, x'⟩ ⟨n, y'⟩ = Dyad.le ⟨m, x⟩ ⟨n, y⟩ := by
  have hle : x' ≤ y' ↔ x ≤ y := by omega
  have hyx : y' - x' = y - x := by omega
  simp only [Dyad.le, hle, hyx, h]

/-- A power of two moves between the number and the exponent. -/
theorem Dyad.le_mul_two_pow (m n : Nat) (x : Int) (d : Dyad) : Dyad.le ⟨m * 2 ^ n, x⟩ d = Dyad.le ⟨m, x + n⟩ d := by
  have hx : min x d.x ≤ x := Int.min_le_left x d.x
  have hxn : min x d.x ≤ x + n := by omega
  have hd : min x d.x ≤ d.x := Int.min_le_right x d.x
  have hat : Dyad.at ⟨m * 2 ^ n, x⟩ (min x d.x) = Dyad.at ⟨m, x + n⟩ (min x d.x) := by
    have hexp : n + (x - min x d.x).toNat = (x + n - min x d.x).toNat := by omega
    simp only [Dyad.at, Nat.mul_assoc, ← Nat.pow_add, hexp]
  rw [Bool.eq_iff_iff, Dyad.le_iff_at hx hd, Dyad.le_iff_at hxn hd, hat]

/-- Of two numbers over one exponent, one within a magnitude and one beyond it, the first is the smaller. -/
theorem Dyad.lt_of_le_of_not_le {m n : Nat} {x : Int} {d : Dyad} (hm : Dyad.le ⟨m, x⟩ d = true) (hn : Dyad.le ⟨n, x⟩ d = false) :
    m < n := by
  have hx : min x d.x ≤ x := Int.min_le_left x d.x
  have hd : min x d.x ≤ d.x := Int.min_le_right x d.x
  exact Nat.lt_of_mul_lt_mul_right
    (Nat.lt_of_le_of_lt ((Dyad.le_iff_at (a := ⟨m, x⟩) hx hd).1 hm) ((Dyad.not_le_iff_at (a := ⟨n, x⟩) hx hd).1 hn))

/-- Over their common exponent b × 2^e and c are the two parts of `shiftRat`, the second one times c. -/
theorem at_shiftRat (b c : Nat) (e : Int) :
    Dyad.at ⟨b, e⟩ (min e 0) = (shiftRat b e).1 ∧ Dyad.at ⟨c, 0⟩ (min e 0) = c * (shiftRat b e).2 := by
  have hnum : (e - min e 0).toNat = e.toNat := by omega
  have hden : (0 - min e 0).toNat = (-e).toNat := by omega
  simp only [Dyad.at, shiftRat, hnum, hden, and_self]

theorem shiftRat_le_iff (b c : Nat) (e : Int) : Dyad.le ⟨b, e⟩ ⟨c, 0⟩ = true ↔ (shiftRat b e).1 ≤ c * (shiftRat b e).2 := by
  obtain ⟨hb, hc⟩ := at_shiftRat b c e
  rw [Dyad.le_iff_at (z := min e 0) (Int.min_le_left e 0) (Int.min_le_right e 0), hb, hc]

theorem le_shiftRat_iff (b c : Nat) (e : Int) : Dyad.le ⟨c, 0⟩ ⟨b, e⟩ = true ↔ c * (shiftRat b e).2 ≤ (shiftRat b e).1 := by
  obtain ⟨hb, hc⟩ := at_shiftRat b c e
  rw [Dyad.le_iff_at (z := min e 0) (Int.min_le_right e 0) (Int.min_le_left e 0), hb, hc]

theorem log2_bounds {n : Nat} (hn : 0 < n) : 2 ^ log2 n ≤ n ∧ n < 2 ^ (log2 n + 1) :=
  ⟨Nat.log2_self_le (Nat.ne_of_gt hn), Nat.lt_log2_self⟩

/-- The difference of the whole logarithms is less than 1 off the logarithm of a ÷ b. -/
theorem log2_sub_brackets {a b : Nat} (ha : 0 < a) (hb : 0 < b) :
    Dyad.le ⟨b, (log2 a : Int) - log2 b - 1⟩ ⟨a, 0⟩ = true ∧ Dyad.le ⟨b, (log2 a : Int) - log2 b + 1⟩ ⟨a, 0⟩ = false := by
  obtain ⟨halow, hahigh⟩ := log2_bounds ha
  obtain ⟨hblow, hbhigh⟩ := log2_bounds hb
  have hat (m : Nat) {x z : Int} {n : Nat} (h : x - z = n) : Dyad.at ⟨m, x⟩ z = m * 2 ^ n := by simp only [Dyad.at, h, Int.toNat_natCast]
  constructor
  · rw [Dyad.le_iff_at (z := -((log2 b + 1 : Nat) : Int)) (by dsimp only; omega) (by dsimp only; omega), hat b (n := log2 a) (by omega),
      hat a (n := log2 b + 1) (by omega)]
    calc b * 2 ^ log2 a ≤ 2 ^ (log2 b + 1) * a := Nat.mul_le_mul (Nat.le_of_lt hbhigh) halow
      _ = a * 2 ^ (log2 b + 1) := Nat.mul_comm _ _
  · rw [Dyad.not_le_iff_at (z := -(log2 b : Int)) (by dsimp only; omega) (by dsimp only; omega), hat b (n := log2 a + 1) (by omega),
      hat a (n := log2 b) (by omega)]
    calc a * 2 ^ log2 b < 2 ^ (log2 a + 1) * 2 ^ log2 b := Nat.mul_lt_mul_of_pos_right hahigh (Nat.two_pow_pos _)
      _ ≤ 2 ^ (log2 a + 1) * b := Nat.mul_le_mul_left _ hblow
      _ = b * 2 ^ (log2 a + 1) := Nat.mul_comm _ _

/-- `floorLog2 a b` brackets a ÷ b between two powers of two. -/
theorem floorLog2_bounds {a b : Nat} (ha : 0 < a) (hb : 0 < b) :
    Dyad.le ⟨b, floorLog2 a b⟩ ⟨a, 0⟩ = true ∧ Dyad.le ⟨b, floorLog2 a b + 1⟩ ⟨a, 0⟩ = false := by
  obtain ⟨hbelow, habove⟩ := log2_sub_brackets ha hb
  unfold floorLog2
  dsimp only
  split
  case isTrue h =>
    rw [Int.sub_add_cancel, ← Bool.not_eq_true]
    exact ⟨hbelow, fun hle => Nat.not_le.2 h ((shiftRat_le_iff b a _).1 hle)⟩
  case isFalse h => exact ⟨(shiftRat_le_iff _ _ _).2 (Nat.not_lt.1 h), habove⟩

/-! ## The step search (R97) -/

/-- The whole part of a × 2^e ÷ b. -/
theorem shiftRat_div_bounds (a : Nat) (e : Int) {b : Nat} (hb : 0 < b) :
    Dyad.le ⟨b * ((shiftRat a e).1 / (b * (shiftRat a e).2)), 0⟩ ⟨a, e⟩ = true
    ∧ Dyad.le ⟨b * ((shiftRat a e).1 / (b * (shiftRat a e).2) + 1), 0⟩ ⟨a, e⟩ = false := by
  have hpos : 0 < b * (shiftRat a e).2 := Nat.mul_pos hb (Nat.two_pow_pos _)
  rw [← Bool.not_eq_true, le_shiftRat_iff, le_shiftRat_iff, Nat.mul_right_comm, Nat.mul_right_comm b (_ + 1), Nat.not_le]
  exact ⟨Nat.mul_div_le _ _, Nat.lt_mul_div_succ _ hpos⟩

/-- The numerator 2·h64·m and the divisor 64·(2·Qmax + 1) of the load h × m ÷ (Qmax + ½), in their order. -/
def loadNum (m : Dyad) (h64 : Nat) : Nat := 2 * h64 * m.m
def loadDen (qmax : Nat) : Nat := 64 * (2 * qmax + 1)

/-- The exponent of the load, of its own number. -/
def loadExp (m : Dyad) (h64 qmax : Nat) : Int := floorLog2 (loadNum m h64) (loadDen qmax)

/-- The whole part of the load's mantissa, in 128ths. -/
def loadMant (m : Dyad) (h64 qmax : Nat) : Nat :=
  (shiftRat (loadNum m h64) (7 - loadExp m h64 qmax)).1 / (loadDen qmax * (shiftRat (loadNum m h64) (7 - loadExp m h64 qmax)).2)

theorem loadNum_pos {m : Dyad} {h64 : Nat} (hm : 0 < m.m) (hh : 0 < h64) : 0 < loadNum m h64 :=
  Nat.mul_pos (Nat.mul_pos Nat.two_pos hh) hm

theorem loadDen_pos (qmax : Nat) : 0 < loadDen qmax := Nat.mul_pos (by decide) (Nat.succ_pos _)

theorem loadMant_bounds {m : Dyad} {h64 : Nat} (hm : 0 < m.m) (hh : 0 < h64) (qmax : Nat) :
    128 ≤ loadMant m h64 qmax ∧ loadMant m h64 qmax ≤ 255 := by
  obtain ⟨hlow, hhigh⟩ := floorLog2_bounds (loadNum_pos hm hh) (loadDen_pos qmax)
  obtain ⟨hle, hlt⟩ := shiftRat_div_bounds (loadNum m h64) (7 - loadExp m h64 qmax) (loadDen_pos qmax)
  have hscale (i : Int) (j : Nat) (hj : (j : Int) = i + 7) :
      Dyad.le ⟨loadDen qmax, loadExp m h64 qmax + i⟩ ⟨loadNum m h64, 0⟩ =
        Dyad.le ⟨loadDen qmax * 2 ^ j, 0⟩ ⟨loadNum m h64, 7 - loadExp m h64 qmax⟩ := by
    rw [Dyad.le_mul_two_pow, Dyad.le_shift]
    omega
  have hfrom : 2 ^ 7 < loadMant m h64 qmax + 1 :=
    Nat.lt_of_mul_lt_mul_left (Dyad.lt_of_le_of_not_le ((hscale 0 7 rfl).symm.trans (by rwa [Int.add_zero])) hlt)
  have hto : loadMant m h64 qmax < 2 ^ 8 := Nat.lt_of_mul_lt_mul_left (Dyad.lt_of_le_of_not_le hle ((hscale 1 8 rfl).symm.trans hhigh))
  omega

/-- Both sides of R97's comparison, multiplied by the divisor: the load, and a step M × 2^(e + B - 7). -/
def scaledLoad (m : Dyad) (h64 : Nat) : Dyad := { m := loadNum m h64, x := m.x }
def scaledStep (qmax : Nat) (base : Int) (mant : Nat) (e : Int) : Dyad := { m := loadDen qmax * mant, x := e + base - 7 }

/-- The load lies between two neighbouring mantissas at its exponent. -/
theorem scaledLoad_between (m : Dyad) (h64 qmax : Nat) (base : Int) :
    (scaledStep qmax base (loadMant m h64 qmax) (loadExp m h64 qmax + m.x - base)).le (scaledLoad m h64) = true
    ∧ (scaledStep qmax base (loadMant m h64 qmax + 1) (loadExp m h64 qmax + m.x - base)).le (scaledLoad m h64) = false := by
  obtain ⟨hle, hlt⟩ := shiftRat_div_bounds (loadNum m h64) (7 - loadExp m h64 qmax) (loadDen_pos qmax)
  have hexp : loadExp m h64 qmax + m.x - base + base - 7 - m.x = 0 - (7 - loadExp m h64 qmax) := by omega
  exact ⟨(Dyad.le_shift _ _ hexp).trans hle, (Dyad.le_shift _ _ hexp).trans hlt⟩

/-- Doubling the mantissa is one more in the exponent. -/
theorem scaledStep_le_double (qmax : Nat) (base : Int) (mant : Nat) (e : Int) (d : Dyad) :
    (scaledStep qmax base mant (e + 1)).le d = (scaledStep qmax base (2 * mant) e).le d := by
  have hmant : loadDen qmax * (2 * mant) = loadDen qmax * mant * 2 ^ 1 := by rw [Nat.pow_one, Nat.mul_comm 2, Nat.mul_assoc]
  have hexp : e + 1 + base - 7 = e + base - 7 + (1 : Nat) := by omega
  rw [scaledStep, scaledStep, hmant, Dyad.le_mul_two_pow, hexp]

/-- The mantissa and the exponent of the smallest normalised step above the load, before the exponent's range is applied. -/
def freeMant (m : Dyad) (h64 qmax : Nat) : Nat := if loadMant m h64 qmax + 1 == 256 then 128 else loadMant m h64 qmax + 1
def freeExp (m : Dyad) (h64 qmax : Nat) (base : Int) : Int :=
  if loadMant m h64 qmax + 1 == 256 then loadExp m h64 qmax + m.x - base + 1 else loadExp m h64 qmax + m.x - base

/-- The step search is the free step held to the exponent's range: clamped at its foot, clamped at its top, or as it is. -/
theorem stepFor_cases {m : Dyad} {h64 qmax : Nat} {base lo hi : Int} {st : StepOut} (h : stepFor m h64 qmax base lo hi = st) :
    st = { mant := 128, exp := lo, low := true, high := false }
    ∨ st = { mant := 255, exp := hi, low := false, high := true }
    ∨ lo ≤ freeExp m h64 qmax base ∧ freeExp m h64 qmax base ≤ hi
      ∧ st = { mant := freeMant m h64 qmax, exp := freeExp m h64 qmax base, low := false, high := false } := by
  subst h
  by_cases hlow : freeExp m h64 qmax base < lo
  · exact .inl (if_pos hlow)
  · by_cases hhigh : freeExp m h64 qmax base > hi
    · exact .inr (.inl ((if_neg hlow).trans (if_pos hhigh)))
    · exact .inr (.inr ⟨Int.not_lt.1 hlow, Int.not_lt.1 hhigh, (if_neg hlow).trans (if_neg hhigh)⟩)

/-- R97: the free step is normalised, exceeds the load, and the step below it does not. -/
theorem freeStep_smallest {m : Dyad} {h64 : Nat} (hm : 0 < m.m) (hh : 0 < h64) (qmax : Nat) (base : Int) :
    128 ≤ freeMant m h64 qmax ∧ freeMant m h64 qmax ≤ 255
    ∧ (scaledStep qmax base (freeMant m h64 qmax) (freeExp m h64 qmax base)).le (scaledLoad m h64) = false
    ∧ (if freeMant m h64 qmax = 128 then scaledStep qmax base 255 (freeExp m h64 qmax base - 1)
        else scaledStep qmax base (freeMant m h64 qmax - 1) (freeExp m h64 qmax base)).le (scaledLoad m h64) = true := by
  obtain ⟨hlow, hhigh⟩ := loadMant_bounds hm hh qmax
  obtain ⟨hbelow, habove⟩ := scaledLoad_between m h64 qmax base
  unfold freeMant freeExp
  by_cases h : loadMant m h64 qmax = 255
  · rw [h] at hbelow habove
    simp only [h, beq_self_eq_true, if_true, Int.add_sub_cancel, scaledStep_le_double]
    exact ⟨by decide, by decide, habove, hbelow⟩
  · have hne : (loadMant m h64 qmax + 1 == 256) = false := by simp [h]
    have hne' : loadMant m h64 qmax + 1 ≠ 128 := by omega
    simp only [hne, if_neg hne', Bool.false_eq_true, if_false, Nat.add_sub_cancel]
    exact ⟨by omega, by omega, habove, hbelow⟩

/-! ## Rounding and saturation (R102, R103) -/

theorem satTo_bounds (q : Nat) (i : Int) : -(q : Int) ≤ satTo q i ∧ satTo q i ≤ q := by
  unfold satTo
  split
  · omega
  · split <;> omega

/-- A number that saturation changes lies outside ±q, and becomes the bound on its side. -/
theorem satTo_ne_self {q : Nat} {i : Int} (h : satTo q i ≠ i) :
    (satTo q i = q ∧ (q : Int) < i) ∨ (satTo q i = -(q : Int) ∧ i < -(q : Int)) := by
  unfold satTo at h ⊢
  split
  case isTrue hlow => exact .inr ⟨rfl, hlow⟩
  case isFalse hlow =>
    split
    case isTrue hhigh => exact .inl ⟨rfl, hhigh⟩
    case isFalse hhigh => exact absurd (by rw [if_neg hlow, if_neg hhigh]) h

/-- The number `quotient` divides and the number it divides by. -/
def quotNum (n e k : Int) : Int := n * (2 ^ (e - k).toNat : Nat)
def quotDen (e : Int) (mant : Nat) (k : Int) : Nat := mant * 2 ^ (k - e).toNat

theorem quotDen_pos (e : Int) {mant : Nat} (k : Int) (h : 0 < mant) : 0 < quotDen e mant k := Nat.mul_pos h (Nat.two_pow_pos _)

theorem quotient_eq (n e : Int) (mant : Nat) (k : Int) :
    quotient n e mant k = (quotNum n e k / (quotDen e mant k : Int), (quotNum n e k % (quotDen e mant k : Int)).toNat, quotDen e mant k) := rfl

/-- Half to even: within half of the quotient, and even at exactly a half. -/
theorem roundEven_nearest (num : Int) {den : Nat} (hd : 0 < den) :
    let r := roundEven (num / (den : Int), (num % (den : Int)).toNat, den)
    2 * (r * den - num).natAbs ≤ den ∧ (2 * (r * den - num).natAbs = den → r % 2 = 0) := by
  have hdecomp : num / (den : Int) * den + num % den = num := Int.ediv_mul_add_emod num den
  have hnonneg : 0 ≤ num % (den : Int) := Int.emod_nonneg _ (by omega)
  have hlt : num % (den : Int) < den := Int.emod_lt_of_pos _ (by omega)
  have hdown : num / (den : Int) * den - num = -(num % den) := by omega
  have hup : (num / (den : Int) + 1) * den - num = den - num % den := by rw [Int.add_mul]; omega
  unfold roundEven
  dsimp only
  split
  case isTrue h => rw [hdown]; omega
  case isFalse h =>
    split
    case isTrue h' => rw [hup]; omega
    case isFalse h' =>
      split
      case isTrue heven => rw [hdown]; exact ⟨by omega, fun _ => by simpa using heven⟩
      case isFalse hodd =>
        rw [beq_iff_eq] at hodd
        rw [hup]; omega

/-- A code rounded half to even beyond ±Qmax comes of a quotient at ±(Qmax + ½) or beyond. -/
theorem roundEven_beyond (num : Int) {den : Nat} (hd : 0 < den) (qmax : Nat) :
    let r := roundEven (num / (den : Int), (num % (den : Int)).toNat, den)
    ((qmax : Int) < r → (2 * qmax + 1) * den ≤ 2 * num) ∧ (r < -(qmax : Int) → 2 * num ≤ -((2 * qmax + 1) * den)) := by
  intro r
  have hnear : 2 * (r * den - num).natAbs ≤ den := (roundEven_nearest num hd).1
  have hbound : 2 * (r * den - num) ≤ den ∧ -(den : Int) ≤ 2 * (r * den - num) := by omega
  have hexpand : (2 * (qmax : Int) + 1) * den = 2 * (qmax * den) + den := by rw [Int.add_mul, Int.one_mul, Int.mul_assoc]
  rw [hexpand]
  constructor
  · intro h
    have hmul : ((qmax : Int) + 1) * den ≤ r * den := Int.mul_le_mul_of_nonneg_right h (Int.natCast_nonneg den)
    rw [Int.add_mul, Int.one_mul] at hmul
    omega
  · intro h
    have hmul : (r + 1) * den ≤ -(qmax : Int) * den := Int.mul_le_mul_of_nonneg_right h (Int.natCast_nonneg den)
    rw [Int.add_mul, Int.one_mul, Int.neg_mul] at hmul
    omega

/-- Stochastic rounding: the floor, and one more where u is below frac16 (R103). -/
theorem roundStoch_eq (u : Nat) (num : Int) {den : Nat} (hd : 0 < den) :
    roundStoch u (num / (den : Int), (num % (den : Int)).toNat, den) =
      num / den + (if (u : Int) < num % den * 65536 / den then 1 else 0) := by
  have hfrac : (((num % (den : Int)).toNat * 65536 / den : Nat) : Int) = num % den * 65536 / den := by
    rw [Int.natCast_ediv, Int.natCast_mul, Int.toNat_of_nonneg (Int.emod_nonneg _ (by omega))]
    rfl
  have hiff : u < (num % (den : Int)).toNat * 65536 / den ↔ (u : Int) < num % den * 65536 / den := by rw [← hfrac, Int.ofNat_lt]
  unfold roundStoch
  dsimp only
  simp only [hiff]
  split <;> simp

/-- The quotient as its mode rounds it, before saturation. -/
def rounded (n e : Int) (mant : Nat) (k : Int) : Option Nat → Int
  | none => roundEven (quotient n e mant k)
  | some u => roundStoch u (quotient n e mant k)

theorem quantise_eq (n e : Int) (mant : Nat) (k : Int) (qmax : Nat) (u : Option Nat) :
    quantise n e mant k qmax u =
      (satTo qmax (rounded n e mant k u), satTo qmax (rounded n e mant k u) != rounded n e mant k u) := by
  cases u <;> rfl

theorem quantise_bounds (n e : Int) (mant : Nat) (k : Int) (qmax : Nat) (u : Option Nat) :
    -(qmax : Int) ≤ (quantise n e mant k qmax u).1 ∧ (quantise n e mant k qmax u).1 ≤ qmax := by
  rw [quantise_eq]
  exact satTo_bounds _ _

theorem quantise_of_kept {n e k : Int} {mant qmax : Nat} {u : Option Nat} (h : (quantise n e mant k qmax u).2 = false) :
    (quantise n e mant k qmax u).1 = rounded n e mant k u := by
  rw [quantise_eq] at h ⊢
  simpa using h

theorem quantise_of_saturated {n e k : Int} {mant qmax : Nat} {u : Option Nat} (h : (quantise n e mant k qmax u).2 = true) :
    ((quantise n e mant k qmax u).1 = qmax ∧ (qmax : Int) < rounded n e mant k u)
    ∨ ((quantise n e mant k qmax u).1 = -(qmax : Int) ∧ rounded n e mant k u < -(qmax : Int)) := by
  rw [quantise_eq] at h ⊢
  exact satTo_ne_self (by simpa using h)

end Sys2Proof.Machine

/-! ## The statement -/

namespace Sys2Proof

open Machine

/-- Settles O33: the accumulator's cases, then the step search and the quantiser, each from its lemma above. -/
theorem accumulatorRule : Obligations.AccumulatorRule := by
  intro old upd p sat
  refine ⟨fun h => accUpdate_poison h upd sat, fun h hp hs => ?kept, fun h hp hs hu => ?taken, fun h hp hs hu => ?sum,
    accSaturates_iff old upd p sat, accSat_iff old, rfl, fun m h qmax base lo hi hm hh hr => ?step, fun _ _ _ => rfl,
    fun n e k mant qmax u hmant => ?codes⟩
  case kept => subst hp; rw [accUpdate_of_not_poison h, if_pos hs]
  case taken => subst hp hu; rw [accUpdate_of_not_poison h, hs]; rfl
  case sum =>
    subst hp hu
    rw [accUpdate_of_not_poison h, hs]
    exact toInt_ofInt_clamped _
  case step =>
    obtain ⟨hfrom, hto, habove, hbelow⟩ := freeStep_smallest hm hh qmax base
    generalize hst : stepFor m h qmax base lo hi = st
    obtain rfl | rfl | ⟨hlow, hhigh, rfl⟩ := stepFor_cases hst
    · exact ⟨Nat.le_refl 128, (by decide : 128 ≤ 255), Int.le_refl lo, hr, fun _ => ⟨rfl, rfl⟩, nofun, nofun⟩
    · exact ⟨(by decide : 128 ≤ 255), Nat.le_refl 255, hr, Int.le_refl hi, nofun, fun _ => ⟨rfl, rfl⟩, nofun⟩
    · exact ⟨hfrom, hto, hlow, hhigh, nofun, nofun, fun _ _ => ⟨habove, hbelow⟩⟩
  case codes =>
    intro num den c d
    have hden : 0 < quotDen e mant k := quotDen_pos e k hmant
    obtain ⟨hclo, hchi⟩ := quantise_bounds n e mant k qmax none
    obtain ⟨hdlo, hdhi⟩ := quantise_bounds n e mant k qmax (some u)
    obtain ⟨hover, hunder⟩ := roundEven_beyond (quotNum n e k) hden qmax
    refine ⟨hchi, hclo, hdlo, hdhi, fun hkept => ?_, fun hsat => ?_, fun hkept => ?_⟩
    · rw [show c.1 = rounded n e mant k none from quantise_of_kept hkept, rounded, quotient_eq]
      exact roundEven_nearest (quotNum n e k) hden
    · exact (quantise_of_saturated hsat).imp (And.imp_right hover) (And.imp_right hunder)
    · rw [show d.1 = rounded n e mant k (some u) from quantise_of_kept hkept, rounded, quotient_eq]
      exact roundStoch_eq u (quotNum n e k) hden

end Sys2Proof
end

section
/-! The word code (R331): the values H_j, the check bits, the syndrome and parity of a word with some of its bits flipped. -/

namespace Sys2Proof.Machine

/-! ## The values H_j -/

theorem mem_hTable {v : Nat} : v ∈ hTable ↔ v < 128 ∧ 2 ≤ popcount 7 v := by simp [hTable]

theorem hTable_pairwise_lt : hTable.Pairwise (· < ·) := List.pairwise_lt_range.filter _

theorem length_hTable : hTable.length = 120 := by decide +kernel

theorem lt_length_hTable {j : Nat} (hj : j < 64) : j < hTable.length := by
  rw [length_hTable]
  omega

theorem hOf_eq_getElem {j : Nat} (hj : j < hTable.length) : hOf j = hTable[j] := by simp [hOf, nth, hj]

theorem hOf_mem {j : Nat} (hj : j < hTable.length) : hOf j ∈ hTable := hOf_eq_getElem hj ▸ List.getElem_mem hj

theorem hOf_lt_hOf {i j : Nat} (hij : i < j) (hj : j < hTable.length) : hOf i < hOf j := by
  rw [hOf_eq_getElem (Nat.lt_trans hij hj), hOf_eq_getElem hj]
  exact List.pairwise_iff_getElem.mp hTable_pairwise_lt i j _ _ hij

/-- The first 64 of the values are all those up to H_63. -/
theorem exists_hOf_eq {v : Nat} (h : 2 ≤ popcount 7 v) (hv : v ≤ hOf 63) : ∃ j < 64, hOf j = v := by
  have hlt : v < 128 := Nat.lt_of_le_of_lt hv (mem_hTable.mp (hOf_mem (lt_length_hTable (by decide)))).1
  obtain ⟨j, hj, rfl⟩ := List.getElem_of_mem (mem_hTable.mpr ⟨hlt, h⟩)
  rw [← hOf_eq_getElem hj] at hv ⊢
  have hle : ¬ 63 < j := fun hlt => Nat.not_lt.mpr hv (hOf_lt_hOf hlt hj)
  exact ⟨j, Nat.lt_succ_of_le (Nat.not_lt.mp hle), rfl⟩

theorem findIdx_hTable_hOf {j : Nat} (hj : j < hTable.length) : hTable.findIdx (· == hOf j) = j := by
  rw [hOf_eq_getElem hj]
  exact List.Nodup.idxOf_getElem (hTable_pairwise_lt.imp Nat.ne_of_lt) j hj

theorem hOf_mem_take {j : Nat} (hj : j < 64) : hOf j ∈ hTable.take 64 := by
  have hlen : j < hTable.length := lt_length_hTable hj
  rw [hOf_eq_getElem hlen]
  exact List.mem_take_iff_getElem.mpr ⟨j, by omega, rfl⟩

theorem eq_hOf_of_mem_take {v : Nat} (hv : v ∈ hTable.take 64) : ∃ j < 64, v = hOf j := by
  obtain ⟨j, hj, rfl⟩ := List.mem_take_iff_getElem.mp hv
  exact ⟨j, by omega, (hOf_eq_getElem (by omega)).symm⟩

/-! ## Ones in a number -/

theorem popcount_add (m n v : Nat) : popcount (m + n) v = popcount m v + popcount n (v / 2 ^ m) := by
  induction m generalizing v with
  | zero => simp [popcount]
  | succ m ih => rw [Nat.succ_add, popcount, popcount, ih, Nat.div_div_eq_div_mul, Nat.pow_succ', Nat.add_assoc]

theorem popcount_mod (n v : Nat) : popcount n (v % 2 ^ n) = popcount n v := by
  induction n generalizing v with
  | zero => rfl
  | succ n ih =>
    have hlow : v % 2 ^ (n + 1) % 2 = v % 2 := Nat.mod_mul_left_mod v (2 ^ n) 2
    have hhigh : v % 2 ^ (n + 1) / 2 = v / 2 % 2 ^ n := by rw [Nat.pow_succ', Nat.mod_mul_right_div_self]
    rw [popcount, popcount, hlow, hhigh, ih]

/-- The parity of the ones is linear. -/
theorem popcount_xor_mod_two (n a b : Nat) : popcount n (a ^^^ b) % 2 = (popcount n a + popcount n b) % 2 := by
  induction n generalizing a b with
  | zero => rfl
  | succ n ih =>
    have hhigh : (a ^^^ b) / 2 = a / 2 ^^^ b / 2 := Nat.xor_div_two
    have hlow : (a ^^^ b) % 2 = (a + b) % 2 := by have := @Nat.xor_mod_two_eq_one a b; omega
    have hrest := ih (a / 2) (b / 2)
    simp only [popcount, hhigh]
    omega

theorem popcount_zero (n : Nat) : popcount n 0 = 0 := by
  induction n with
  | zero => rfl
  | succ n ih => simp [popcount, ih]

theorem popcount_two_pow {n j : Nat} (hj : j < n) : popcount n (2 ^ j) = 1 := by
  induction n generalizing j with
  | zero => exact absurd hj (Nat.not_lt_zero j)
  | succ n ih =>
    cases j with
    | zero => simp [popcount, popcount_zero]
    | succ j => simp [popcount, Nat.pow_succ, ih (Nat.lt_of_succ_lt_succ hj)]

/-! ## XOR and fields -/

theorem xor_ne_zero {a b : Nat} (h : a ≠ b) : a ^^^ b ≠ 0 := by
  intro hz
  have hcancel : a ^^^ (a ^^^ b) = b := by rw [← Nat.xor_assoc, Nat.xor_self, Nat.zero_xor]
  rw [hz, Nat.xor_zero] at hcancel
  exact h hcancel

theorem fld_xor (a b lo n : Nat) : fld (a ^^^ b) lo n = fld a lo n ^^^ fld b lo n := by
  rw [fld, Nat.xor_div_two_pow, Nat.xor_mod_two_pow, fld, fld]

theorem bitAt_fld (v lo : Nat) {n k : Nat} (hk : k < n) : bitAt (fld v lo n) k = bitAt v (lo + k) := by
  simp [bitAt_eq_testBit, fld, hk, Nat.testBit_div_two_pow, Nat.add_comm]

/-! ## Check bits -/

/-- The XOR into `a` of the values `h j` of those positions `j` of a list that `d` selects, as `checkBits` forms it. -/
def xorSelected (h : Nat → Nat) (d a : Nat) (l : List Nat) : Nat :=
  l.foldl (fun a j => if bitAt d j then Nat.xor a (h j) else a) a

theorem xorSelected_cons (h : Nat → Nat) (d a j : Nat) (l : List Nat) :
    xorSelected h d a (j :: l) = xorSelected h d (a ^^^ if bitAt d j then h j else 0) l := by
  have hfirst : xorSelected h d a (j :: l) = xorSelected h d (if bitAt d j then a ^^^ h j else a) l := rfl
  rw [hfirst]
  split <;> simp

theorem checkBits_eq (d : Nat) : checkBits d = xorSelected hOf d 0 (List.range 64) := rfl

theorem odd_length_filter_cons {α : Type} (p : α → Bool) (x : α) (l : List α) :
    (((x :: l).filter p).length % 2 == 1) = (p x ^^ ((l.filter p).length % 2 == 1)) := by
  cases hx : p x
  · simp [hx]
  · rw [List.filter_cons_of_pos hx, List.length_cons]
    rcases Nat.mod_two_eq_zero_or_one (l.filter p).length with h | h <;> simp [Nat.add_mod, h]

/-- Bit `k` is the parity of the selected values that have it set. -/
theorem testBit_xorSelected (h : Nat → Nat) (d a k : Nat) (l : List Nat) :
    (xorSelected h d a l).testBit k
      = (a.testBit k ^^ ((l.filter (fun j => bitAt d j && bitAt (h j) k)).length % 2 == 1)) := by
  induction l generalizing a with
  | nil => simp [xorSelected]
  | cons j l ih =>
    rw [xorSelected_cons, ih, odd_length_filter_cons, ← Bool.xor_assoc]
    cases bitAt d j <;> simp [bitAt_eq_testBit (h j)]

theorem xorSelected_lt (h : Nat → Nat) (d a n : Nat) (l : List Nat) (ha : a < 2 ^ n) (hl : ∀ j ∈ l, h j < 2 ^ n) :
    xorSelected h d a l < 2 ^ n := by
  induction l generalizing a with
  | nil => exact ha
  | cons j l ih =>
    rw [xorSelected_cons]
    have hsel : (if bitAt d j then h j else 0) < 2 ^ n := by
      split
      · exact hl j List.mem_cons_self
      · exact Nat.two_pow_pos n
    exact ih _ (Nat.xor_lt_two_pow ha hsel) fun i hi => hl i (List.mem_cons_of_mem j hi)

theorem xorSelected_xor (h : Nat → Nat) (x y a b : Nat) (l : List Nat) :
    xorSelected h (x ^^^ y) (a ^^^ b) l = xorSelected h x a l ^^^ xorSelected h y b l := by
  induction l generalizing a b with
  | nil => rfl
  | cons j l ih =>
    have hbit : bitAt (x ^^^ y) j = (bitAt x j ^^ bitAt y j) := by simp [bitAt_eq_testBit]
    have hsel : (if bitAt (x ^^^ y) j then h j else 0) = (if bitAt x j then h j else 0) ^^^ (if bitAt y j then h j else 0) := by
      rw [hbit]
      cases bitAt x j <;> cases bitAt y j <;> simp
    rw [xorSelected_cons, xorSelected_cons, xorSelected_cons, ← ih, hsel]
    congr 1
    ac_rfl

theorem checkBits_lt (d : Nat) : checkBits d < 2 ^ 7 :=
  xorSelected_lt hOf d 0 7 _ (by decide) fun _ hj => (mem_hTable.mp (hOf_mem (lt_length_hTable (List.mem_range.mp hj)))).1

theorem bitAt_checkBits (d k : Nat) :
    bitAt (checkBits d) k = (((List.range 64).filter (fun j => bitAt d j && bitAt (hOf j) k)).length % 2 == 1) := by
  rw [bitAt_eq_testBit, checkBits_eq, testBit_xorSelected, Nat.zero_testBit, Bool.false_xor]

theorem checkBits_xor (x y : Nat) : checkBits (x ^^^ y) = checkBits x ^^^ checkBits y := xorSelected_xor hOf x y 0 0 _

/-! ## Syndrome and parity -/

/-- The syndrome of R331: the recomputed check bits 0 to 6 XOR the received ones. -/
def wordSyndrome (x : Nat) : Nat := checkBits (fld x 0 64) ^^^ fld x 64 7

theorem wordSyndrome_lt (x : Nat) : wordSyndrome x < 2 ^ 7 :=
  Nat.xor_lt_two_pow (checkBits_lt _) (Nat.mod_lt _ (by decide))

theorem wordSyndrome_xor (x y : Nat) : wordSyndrome (x ^^^ y) = wordSyndrome x ^^^ wordSyndrome y := by
  simp only [wordSyndrome, fld_xor, checkBits_xor]
  ac_rfl

theorem wordSyndrome_two_pow_data : ∀ j < 64, wordSyndrome (2 ^ j) = hOf j := by decide +kernel

theorem wordSyndrome_two_pow_check : ∀ k < 7, wordSyndrome (2 ^ (64 + k)) = 2 ^ k := by decide +kernel

theorem wordSyndrome_two_pow_parity : wordSyndrome (2 ^ 71) = 0 := by decide +kernel

/-- No two bits of a word have the same syndrome: the reason why two flips are detected. -/
theorem wordSyndrome_two_pow_nodup : ((List.range 72).map (fun j => wordSyndrome (2 ^ j))).Nodup := by decide +kernel

theorem wordSyndrome_two_pow_ne {i j : Nat} (hij : i < j) (hj : j < 72) : wordSyndrome (2 ^ i) ≠ wordSyndrome (2 ^ j) := by
  have hne := List.pairwise_iff_getElem.mp (List.pairwise_map.mp wordSyndrome_two_pow_nodup) i j
    (by rw [List.length_range]; omega) (by rw [List.length_range]; omega) hij
  rwa [List.getElem_range, List.getElem_range] at hne

/-- The parity of a word is that of its data, check bits 0 to 6 and check bit 7. -/
theorem popcount_word_mod_two (x : Nat) :
    popcount 72 x % 2 = (popcount 64 (fld x 0 64) + popcount 7 (fld x 64 7) + x / 2 ^ 71) % 2 := by
  have hparts : popcount 72 x = popcount 64 x + (popcount 7 (x / 2 ^ 64) + popcount 1 (x / 2 ^ 64 / 2 ^ 7)) := by
    rw [← popcount_add, ← popcount_add]
  have htop : popcount 1 (x / 2 ^ 64 / 2 ^ 7) = x / 2 ^ 71 % 2 := by
    rw [Nat.div_div_eq_div_mul, ← Nat.pow_add]; rfl
  rw [hparts, htop, fld, fld, popcount_mod, popcount_mod, Nat.pow_zero, Nat.div_one]
  omega

/-! ## What reading finds (R331) -/

theorem readWord_eq (w : BitVec 72) :
    readWord w =
      if popcount 72 w.toNat % 2 = 0 then
        if wordSyndrome w.toNat = 0 then .clean (fld w.toNat 0 64) else .bad (fld w.toNat 0 64)
      else if wordSyndrome w.toNat = 0 ∨ ∃ k < 7, wordSyndrome w.toNat = 2 ^ k then .corrected (fld w.toNat 0 64)
      else if wordSyndrome w.toNat ∈ hTable.take 64 then
        .corrected (fld w.toNat 0 64 ^^^ 2 ^ hTable.findIdx (· == wordSyndrome w.toNat))
      else .bad (fld w.toNat 0 64) := by
  have hsyn : Nat.xor (checkBits (fld w.toNat 0 64)) (fld w.toNat 64 7) = wordSyndrome w.toNat := rfl
  simp only [readWord, hsyn, beq_iff_eq, Bool.or_eq_true, List.any_eq_true, List.mem_range, List.contains_iff_mem]
  rfl

section
variable {w : BitVec 72}

theorem readWord_clean (he : popcount 72 w.toNat % 2 = 0) (hs : wordSyndrome w.toNat = 0) : readWord w = .clean (fld w.toNat 0 64) := by
  rw [readWord_eq, if_pos he, if_pos hs]

theorem readWord_even (he : popcount 72 w.toNat % 2 = 0) (hs : wordSyndrome w.toNat ≠ 0) : readWord w = .bad (fld w.toNat 0 64) := by
  rw [readWord_eq, if_pos he, if_neg hs]

/-- A flipped check bit leaves the data as they are. -/
theorem readWord_check (he : popcount 72 w.toNat % 2 = 1) (hs : wordSyndrome w.toNat = 0 ∨ ∃ k < 7, wordSyndrome w.toNat = 2 ^ k) :
    readWord w = .corrected (fld w.toNat 0 64) := by
  rw [readWord_eq, if_neg (by omega), if_pos hs]

/-- A value H_j has two ones, and so is neither 0 nor the syndrome of a flipped check bit. -/
theorem hOf_ne_check {j : Nat} (hj : j < 64) : ¬ (hOf j = 0 ∨ ∃ k < 7, hOf j = 2 ^ k) := by
  have htwo : 2 ≤ popcount 7 (hOf j) := (mem_hTable.mp (hOf_mem (lt_length_hTable hj))).2
  rintro (hz | ⟨k, hk, hp⟩)
  · rw [hz, popcount_zero] at htwo; omega
  · rw [hp, popcount_two_pow hk] at htwo; omega

theorem readWord_data {j : Nat} (he : popcount 72 w.toNat % 2 = 1) (hj : j < 64) (hs : wordSyndrome w.toNat = hOf j) :
    readWord w = .corrected (fld w.toNat 0 64 ^^^ 2 ^ j) := by
  rw [readWord_eq, if_neg (by omega), hs, if_neg (hOf_ne_check hj), if_pos (hOf_mem_take hj), findIdx_hTable_hOf (lt_length_hTable hj)]

theorem readWord_other (hz : wordSyndrome w.toNat ≠ 0) (hp : ∀ k < 7, wordSyndrome w.toNat ≠ 2 ^ k)
    (hd : ∀ j < 64, wordSyndrome w.toNat ≠ hOf j) : readWord w = .bad (fld w.toNat 0 64) := by
  have hcheck : ¬ (wordSyndrome w.toNat = 0 ∨ ∃ k < 7, wordSyndrome w.toNat = 2 ^ k) :=
    not_or.mpr ⟨hz, fun ⟨k, hk, h⟩ => hp k hk h⟩
  have hdata : wordSyndrome w.toNat ∉ hTable.take 64 := fun hm =>
    have ⟨j, hj, h⟩ := eq_hOf_of_mem_take hm
    hd j hj h
  rw [readWord_eq, if_neg hz, if_neg hcheck, if_neg hdata, ite_self]

end

/-! ## Written words -/

theorem toNat_protect {d : Nat} (hd : d < 2 ^ 64) :
    (protect d).toNat = d + checkBits d * 2 ^ 64 + (popcount 64 d + popcount 7 (checkBits d)) % 2 * 2 ^ 71 := by
  have hc := checkBits_lt d
  simp only [protect, Nat.mod_eq_of_lt hd, BitVec.toNat_ofNat]
  omega

theorem fld_protect_data {d : Nat} (hd : d < 2 ^ 64) : fld (protect d).toNat 0 64 = d := by
  rw [toNat_protect hd, fld]; omega

theorem fld_protect_check {d : Nat} (hd : d < 2 ^ 64) : fld (protect d).toNat 64 7 = checkBits d := by
  have hc := checkBits_lt d
  rw [toNat_protect hd, fld]; omega

theorem protect_parity {d : Nat} (hd : d < 2 ^ 64) : (protect d).toNat / 2 ^ 71 = (popcount 64 d + popcount 7 (checkBits d)) % 2 := by
  have hc := checkBits_lt d
  rw [toNat_protect hd]; omega

theorem wordSyndrome_protect {d : Nat} (hd : d < 2 ^ 64) : wordSyndrome (protect d).toNat = 0 := by
  rw [wordSyndrome, fld_protect_data hd, fld_protect_check hd, Nat.xor_self]

theorem popcount_protect_mod_two {d : Nat} (hd : d < 2 ^ 64) : popcount 72 (protect d).toNat % 2 = 0 := by
  rw [popcount_word_mod_two, fld_protect_data hd, fld_protect_check hd, protect_parity hd]; omega

theorem readWord_protect {d : Nat} (hd : d < 2 ^ 64) : readWord (protect d) = .clean d := by
  rw [readWord_clean (popcount_protect_mod_two hd) (wordSyndrome_protect hd), fld_protect_data hd]

/-! ## Flipped bits -/

theorem toNat_flip (w : BitVec 72) {j : Nat} (hj : j < 72) : (w ^^^ BitVec.ofNat 72 (2 ^ j)).toNat = w.toNat ^^^ 2 ^ j := by
  rw [BitVec.toNat_xor, BitVec.toNat_ofNat, Nat.mod_eq_of_lt (Nat.pow_lt_pow_right (by decide) hj)]

theorem wordSyndrome_flip (w : BitVec 72) {j : Nat} (hj : j < 72) :
    wordSyndrome (w ^^^ BitVec.ofNat 72 (2 ^ j)).toNat = wordSyndrome w.toNat ^^^ wordSyndrome (2 ^ j) := by
  rw [toNat_flip w hj, wordSyndrome_xor]

theorem popcount_flip_mod_two (w : BitVec 72) {j : Nat} (hj : j < 72) :
    popcount 72 (w ^^^ BitVec.ofNat 72 (2 ^ j)).toNat % 2 = (popcount 72 w.toNat + 1) % 2 := by
  rw [toNat_flip w hj, popcount_xor_mod_two, popcount_two_pow hj]

/-- One flip: the syndrome is the flipped bit's own, and the parity is odd. -/
theorem readWord_one_flip {d j : Nat} (hd : d < 2 ^ 64) (hj : j < 72) :
    readWord (protect d ^^^ BitVec.ofNat 72 (2 ^ j)) = .corrected d := by
  have he : popcount 72 (protect d ^^^ BitVec.ofNat 72 (2 ^ j)).toNat % 2 = 1 := by
    have := popcount_protect_mod_two hd
    rw [popcount_flip_mod_two _ hj]; omega
  have hs : wordSyndrome (protect d ^^^ BitVec.ofNat 72 (2 ^ j)).toNat = wordSyndrome (2 ^ j) := by
    rw [wordSyndrome_flip _ hj, wordSyndrome_protect hd, Nat.zero_xor]
  have hfld : fld (protect d ^^^ BitVec.ofNat 72 (2 ^ j)).toNat 0 64 = d ^^^ fld (2 ^ j) 0 64 := by
    rw [toNat_flip _ hj, fld_xor, fld_protect_data hd]
  by_cases hdata : j < 64
  · have hbit : fld (2 ^ j) 0 64 = 2 ^ j := by
      rw [fld, Nat.pow_zero, Nat.div_one, Nat.mod_eq_of_lt (Nat.pow_lt_pow_right (by decide) hdata)]
    rw [readWord_data he hdata (hs.trans (wordSyndrome_two_pow_data j hdata)), hfld, hbit, Nat.xor_assoc, Nat.xor_self, Nat.xor_zero]
  · have hbit : fld (2 ^ j) 0 64 = 0 := by
      rw [fld, Nat.pow_zero, Nat.div_one, Nat.mod_eq_zero_of_dvd (Nat.pow_dvd_pow 2 (Nat.le_of_not_lt hdata))]
    have hcheck : wordSyndrome (2 ^ j) = 0 ∨ ∃ k < 7, wordSyndrome (2 ^ j) = 2 ^ k := by
      obtain ⟨k, rfl⟩ := Nat.exists_eq_add_of_le (Nat.le_of_not_lt hdata)
      rcases Nat.lt_or_ge k 7 with hk | hk
      · exact .inr ⟨k, hk, wordSyndrome_two_pow_check k hk⟩
      · obtain rfl : k = 7 := by omega
        exact .inl wordSyndrome_two_pow_parity
    rw [readWord_check he (hs ▸ hcheck), hfld, hbit, Nat.xor_zero]

/-- Two flips: the parity is even, and the syndromes of two bits never cancel. -/
theorem readWord_two_flips {d i j : Nat} (hd : d < 2 ^ 64) (hij : i < j) (hj : j < 72) :
    (readWord (protect d ^^^ BitVec.ofNat 72 (2 ^ i) ^^^ BitVec.ofNat 72 (2 ^ j))).isBad = true := by
  have hi : i < 72 := Nat.lt_trans hij hj
  rw [readWord_even]
  · rfl
  · have hp := popcount_protect_mod_two hd
    have h1 := popcount_flip_mod_two (protect d) hi
    rw [popcount_flip_mod_two _ hj]; omega
  · rw [wordSyndrome_flip _ hj, wordSyndrome_flip _ hi, wordSyndrome_protect hd, Nat.zero_xor]
    exact xor_ne_zero (wordSyndrome_two_pow_ne hij hj)

/-! ## The syndrome from its bits -/

/-- The seven bits of the syndrome determine it. -/
theorem eq_wordSyndrome {x syn : Nat} (hlt : syn < 2 ^ 7)
    (h : ∀ k < 7, bitAt syn k = (bitAt (checkBits (fld x 0 64)) k ^^ bitAt x (64 + k))) :
    syn = wordSyndrome x := by
  refine Nat.eq_of_testBit_eq fun k => ?_
  rcases Nat.lt_or_ge k 7 with hk | hk
  · rw [← bitAt_eq_testBit, h k hk, wordSyndrome, Nat.testBit_xor, bitAt_eq_testBit, ← bitAt_fld x 64 hk, bitAt_eq_testBit]
  · have hpow : 2 ^ 7 ≤ 2 ^ k := Nat.pow_le_pow_right (by decide) hk
    rw [Nat.testBit_lt_two_pow (Nat.lt_of_lt_of_le hlt hpow), Nat.testBit_lt_two_pow (Nat.lt_of_lt_of_le (wordSyndrome_lt x) hpow)]

/-! ## The croak (R308, R309) -/

theorem readWord_of_croakValid {s : State} {w : BitVec 72} (h : croakValid s w = true) : (readWord w).isBad = false := by
  simp only [croakValid, Bool.and_eq_true, Bool.not_eq_true'] at h
  exact h.1.1

end Sys2Proof.Machine

/-! ## The statement -/

namespace Sys2Proof

open Machine

/-- Settles O40: the values H_j, the word that is written, the five outcomes by the syndrome, the croak, and no, one and two flips. -/
theorem wordCode : Obligations.WordCode := by
  refine ⟨⟨rfl, fun j hj => mem_hTable.mp (hOf_mem (lt_length_hTable hj)), fun i j hij hj => hOf_lt_hOf hij (lt_length_hTable hj),
      fun v hv hle => exists_hOf_eq hv hle⟩,
    fun d hd => ⟨fld_protect_data hd, fun k hk => ?check, ?parity⟩, fun w syn hlt hsyn => ?outcomes,
    fun s f => ⟨_, rfl⟩, fun s w => readWord_of_croakValid, fun d => readWord_protect,
    fun d j => readWord_one_flip, fun d i j => readWord_two_flips⟩
  case check => rw [← bitAt_fld _ 64 hk, fld_protect_check hd, bitAt_checkBits]
  case parity => rw [bitAt, protect_parity hd, fld_protect_check hd, Nat.mod_mod]
  case outcomes =>
    obtain rfl : syn = wordSyndrome w.toNat := eq_wordSyndrome hlt fun k hk => by rw [hsyn k hk, bitAt_checkBits]
    refine ⟨fun hs he => readWord_clean he hs, fun hs he => readWord_check he (.inl hs),
      fun k hk hs he => readWord_check he (.inr ⟨k, hk, hs⟩), fun j hj hs he => readWord_data he hj hs, ?_⟩
    rintro (⟨hs, he⟩ | ⟨hs, hp, hd⟩)
    · exact readWord_even he hs
    · exact readWord_other hs hp hd

end Sys2Proof
end
